-- ==== Sys2Proof/Word.lean ====
section
/-! DEFINITION. The machine's words (spec/00_scope.md section 4: a byte is 8 bits, bit 0 least significant). -/

namespace Sys2Proof

/-- A byte, 0x00 to 0xFF (00_scope.md section 4). -/
abbrev Byte := BitVec 8

/-- A command word of the command port (30_encoding.md R80). -/
abbrev CmdWord := BitVec 16

/-- A counter, the status word, or the value of a VAL response (30_encoding.md R86, 44_status.md R200, R205). -/
abbrev Word32 := BitVec 32

end Sys2Proof
end

