-- ==== Sys2Proof/Config.lean ====
section
/-! DEFINITION. The implementation parameters (spec/00_scope.md section 3, R8 to R15): what a build fixes and no step
changes. A machine state carries its parameters (State.cfg), so a statement about every state is a statement about every
value of every parameter (notes/assumptions/1.md). -/

namespace Sys2Proof

/-- A handler identity (00_scope.md R15): an opaque type to the framer, which stores and emits its values and never
inspects them. DESIGN CHOICE, notes/assumptions/2.md: identities are tagged natural numbers. -/
structure HandlerId where
  tag : Nat
deriving DecidableEq, Repr

/-- The implementation parameters of 00_scope.md R8 to R14. -/
structure Config where
  /-- MARKER, the frame's start sentinel (R8). -/
  marker : Byte
  /-- P, the payload capacity in bytes (R9). -/
  payloadCap : Nat
  /-- TYPE_COUNT: valid packet types are those below it (R11). -/
  typeCount : Nat
  /-- READ_TIMEOUT in milliseconds (R12). -/
  readTimeout : Nat
  /-- CLOCK_WIDTH, W: the width in bits of a clock value (R13; notes/assumptions/11.md). -/
  clockWidth : Nat
  /-- HAS_COUNTERS (R14). -/
  hasCounters : Bool
deriving DecidableEq, Repr

namespace Config

/-- FRAME_SIZE = P + 5 (R10). -/
def frameSize (c : Config) : Nat := c.payloadCap + 5

/-- The legal parameter values: 1 <= P <= 250 (R9) and 1 <= TYPE_COUNT <= 256 (R11). R8, R12, R13 and R14 allow every
value of their types. -/
abbrev Legal (c : Config) : Prop :=
  1 ≤ c.payloadCap ∧ c.payloadCap ≤ 250 ∧ 1 ≤ c.typeCount ∧ c.typeCount ≤ 256

/-- The test configuration TC (00_scope.md section 6). -/
def tc : Config :=
  { marker := 0xAA, payloadCap := 8, typeCount := 4, readTimeout := 100, clockWidth := 32, hasCounters := true }

end Config
end Sys2Proof
end

