-- ==== Sys2Proof/Syntax.lean ====
section
/-! DEFINITION. The commands of the command port (spec/30_encoding.md R80 to R82): what the port carries, and the one
inductive of instructions, one constructor for each row of spec/opcode_table.json. -/

namespace Sys2Proof

/-- What the host presents for one command: the 16-bit command word (R80) and the sideband operands (R81), which a command
that does not read them ignores. -/
structure Command where
  /-- CMD: OPC 15:12, V 11, IDX 10:8, A8 7:0 (R80). -/
  word : CmdWord
  /-- NOW, the clock value; the sideband is W bits wide (R81; notes/assumptions/11.md). -/
  now : Nat
  /-- H, a handler identity. -/
  handler : HandlerId
  /-- LEN, the caller's length, a natural number of any size. -/
  len : Nat
  /-- PAYLOAD, the caller's payload bytes. -/
  payload : List Byte
deriving DecidableEq, Repr

/-- The instructions, with the operands each reads from the command word and from the sideband (R81, R82). -/
inductive Instr where
  /-- RXB b @now (41_framing.md R120): one received byte. -/
  | rxb (b : Byte) (now : Nat)
  /-- POLL @now (41_framing.md R135): an Update that finds no bytes. -/
  | poll (now : Nat)
  /-- HRET (42_dispatch.md R166): the running handler returns. -/
  | hret
  /-- REG t, h (42_dispatch.md R160): register handler h for type t. -/
  | reg (t : Byte) (h : HandlerId)
  /-- SEND t, payload, len (43_sender.md R180); the payload is absent when v = 0 and then PAYLOAD is not read (R81). -/
  | send (t : Byte) (payload : Option (List Byte)) (len : Nat)
  /-- SETF i, v (43_sender.md R185): write user flag i. -/
  | setf (i : BitVec 3) (v : Bool)
  /-- SETC v (43_sender.md R186): write the critical flag. -/
  | setc (v : Bool)
  /-- RDSTAT s (44_status.md R206): read the status word or a counter. -/
  | rdstat (s : Byte)
deriving DecidableEq, Repr

end Sys2Proof
end

