-- ==== Sys2Proof/WellFormed.lean ====
section
/-! DEFINITION. Well-formed instructions. The fields of the command word have their widths in the types of `Instr`'s
arguments; what is left to check is the one sideband of a bounded width, NOW (spec/30_encoding.md R81, spec/00_scope.md
R13). -/

namespace Sys2Proof

/-- A NOW operand is a W-bit value (30_encoding.md R81). -/
def nowFits (c : Config) (now : Nat) : Bool := decide (now < 2 ^ c.clockWidth)

/-- Every operand fits its field or sideband under the parameters c. -/
def Instr.wf (c : Config) (i : Instr) : Bool :=
  match i with
  | .rxb _ now => nowFits c now
  | .poll now => nowFits c now
  | .hret => true
  | .reg _ _ => true
  | .send _ _ _ => true
  | .setf _ _ => true
  | .setc _ => true
  | .rdstat _ => true

/-- An instruction all of whose operands fit under the parameters c. -/
abbrev WellFormed (c : Config) (i : Instr) : Prop := i.wf c = true

end Sys2Proof
end

