-- ==== Sys2Proof/Decode.lean ====
section
/-! DEFINITION. The decoder and the encoder of command words (spec/30_encoding.md R80 to R85, R89). The decoder is total:
it reads an instruction or refuses the word by name (R85). -/

namespace Sys2Proof

/-! ## The fields of the command word (R80) -/

/-- OPC, bits 15:12. -/
def opcOf (w : CmdWord) : BitVec 4 := w.extractLsb' 12 4

/-- V, bit 11. -/
def vOf (w : CmdWord) : Bool := w.getLsbD 11

/-- IDX, bits 10:8. -/
def idxOf (w : CmdWord) : BitVec 3 := w.extractLsb' 8 3

/-- A8, bits 7:0. -/
def a8Of (w : CmdWord) : Byte := w.extractLsb' 0 8

/-- The command word with the given fields, {OPC, V, IDX, A8} (R80). -/
def packFields (opc : BitVec 4) (v : Bool) (idx : BitVec 3) (a8 : Byte) : CmdWord :=
  opc ++ BitVec.ofBool v ++ idx ++ a8

/-! ## The decoder -/

/-- Why a command word is illegal. Both answers have one effect, ERR_ILLEGAL (R83, R84). -/
inductive DecodeError where
  /-- OPC is 0x0 or 0x9 to 0xF (R83). -/
  | reservedOpcode (opc : BitVec 4)
  /-- A field that the opcode fixes at zero is not zero (R84). -/
  | fixedZeroField (opc : BitVec 4)
deriving DecidableEq, Repr

/-- An instruction, if the fields its opcode fixes at zero are zero (R84). -/
def requireZero (opc : BitVec 4) (zero : Bool) (i : Instr) : Except DecodeError Instr :=
  if zero then .ok i else .error (.fixedZeroField opc)

/-- The instruction of a command (R82): OPC alone selects the row (R85), the row says which fields are fixed at zero, and
only the sideband operands the row reads are taken (R81). -/
def decode (c : Command) : Except DecodeError Instr :=
  let opc := opcOf c.word
  let v := vOf c.word
  let idx := idxOf c.word
  let a8 := a8Of c.word
  match opc.toNat with
  | 1 => requireZero opc (!v && idx == 0) (.rxb a8 c.now)
  | 2 => requireZero opc (!v && idx == 0 && a8 == 0) (.poll c.now)
  | 3 => requireZero opc (!v && idx == 0 && a8 == 0) .hret
  | 4 => requireZero opc (!v && idx == 0) (.reg a8 c.handler)
  | 5 => requireZero opc (idx == 0) (.send a8 (if v then some c.payload else none) c.len)
  | 6 => requireZero opc (a8 == 0) (.setf idx v)
  | 7 => requireZero opc (idx == 0 && a8 == 0) (.setc v)
  | 8 => requireZero opc (!v && idx == 0) (.rdstat a8)
  | _ => .error (.reservedOpcode opc)

/-! ## The encoder -/

/-- A command of a word alone, every sideband operand zero or empty. -/
def Command.ofWord (w : CmdWord) : Command :=
  { word := w, now := 0, handler := ⟨0⟩, len := 0, payload := [] }

/-- The command that carries an instruction: the word of the row's pattern (R82, R89) and the sideband operands the
instruction reads; the others are zero or empty (notes/assumptions/15.md). -/
def encode (i : Instr) : Command :=
  match i with
  | .rxb b now => { Command.ofWord (packFields 0x1 false 0 b) with now := now }
  | .poll now => { Command.ofWord (packFields 0x2 false 0 0) with now := now }
  | .hret => Command.ofWord (packFields 0x3 false 0 0)
  | .reg t h => { Command.ofWord (packFields 0x4 false 0 t) with handler := h }
  | .send t payload len =>
    { Command.ofWord (packFields 0x5 payload.isSome 0 t) with len := len, payload := payload.getD [] }
  | .setf i v => Command.ofWord (packFields 0x6 v i 0)
  | .setc v => Command.ofWord (packFields 0x7 v 0 0)
  | .rdstat s => Command.ofWord (packFields 0x8 false 0 s)

/-! ## The opcode table (spec/opcode_table.json), as masks and matches -/

/-- A row of the opcode table. -/
structure OpcodeRow where
  mnemonic : String
  maskBits : CmdWord
  matchBits : CmdWord
deriving DecidableEq, Repr

/-- The rows of spec/opcode_table.json, in the table's order. -/
def opcodeTable : List OpcodeRow :=
  [⟨"RXB", 0xFF00, 0x1000⟩, ⟨"POLL", 0xFFFF, 0x2000⟩, ⟨"HRET", 0xFFFF, 0x3000⟩, ⟨"REG", 0xFF00, 0x4000⟩,
   ⟨"SEND", 0xF700, 0x5000⟩, ⟨"SETF", 0xF0FF, 0x6000⟩, ⟨"SETC", 0xF7FF, 0x7000⟩, ⟨"RDSTAT", 0xFF00, 0x8000⟩]

/-- A word has the fixed bits of a row. -/
abbrev OpcodeRow.Matches (r : OpcodeRow) (w : CmdWord) : Prop := w &&& r.maskBits = r.matchBits

/-- An instruction's mnemonic in the opcode table. -/
def Instr.mnemonic (i : Instr) : String :=
  match i with
  | .rxb _ _ => "RXB"
  | .poll _ => "POLL"
  | .hret => "HRET"
  | .reg _ _ => "REG"
  | .send _ _ _ => "SEND"
  | .setf _ _ => "SETF"
  | .setc _ => "SETC"
  | .rdstat _ => "RDSTAT"

/-! ## The host's question about one table word -/

/-- The command of a word as spec/opcode_table.json numbers its bits: the low `nbits` bits of w, no other bit set, with
every sideband operand zero or empty (notes/assumptions/15.md). -/
def Command.ofTableWord (nbits w : Nat) : Command := Command.ofWord (BitVec.ofNat 16 (w % 2 ^ nbits))

/-- The instruction the decoder reads from a table word. -/
def decodeTableWord (nbits w : Nat) : Option Instr := (decode (Command.ofTableWord nbits w)).toOption

end Sys2Proof
end

