-- ==== Sys2Proof/Machine/State.lean ====
section
/-! DEFINITION. The machine's state as plain data (spec/10_state.md R20 to R33), the responses and events a step gives
(spec/30_encoding.md R86 to R88), and the state after reset (spec/10_state.md R33, spec/70_reset_and_hazards.md R260). -/

namespace Sys2Proof.Machine

open Sys2Proof

/-- The receive phase (10_state.md R22). The status word's code 3 is never held and has no value here
(notes/assumptions/10.md). -/
inductive Phase where
  /-- No bytes of a new frame consumed. -/
  | idle
  /-- 1 to FRAME_SIZE - 1 bytes consumed, start timestamp recorded. -/
  | accumulating
  /-- A complete valid frame is held while its handler runs (90_conflicts.md C5). -/
  | dispatching
deriving DecidableEq, Repr

/-- The causes of the sticky fault state (10_state.md R29). "No fault", code 0, is the absence of one; code 3 is never
held and has no value here (notes/assumptions/10.md). -/
inductive FaultCode where
  /-- Code 1: RXB, POLL or SEND while a handler runs (60_exceptions.md R233). -/
  | reentrant
  /-- Code 2: a SEND whose payload is shorter than the bytes it must copy (43_sender.md R180). -/
  | payloadShort
deriving DecidableEq, Repr

/-- The seven 32-bit event counters (10_state.md R30). -/
structure Counters where
  resync : Word32
  checksum : Word32
  timeout : Word32
  deliver : Word32
  unkType : Word32
  unreg : Word32
  tx : Word32
deriving DecidableEq, Repr

/-- The counters' names (10_state.md R30), as RDSTAT and the increments refer to them. -/
inductive CounterName where
  | resync | checksum | timeout | deliver | unkType | unreg | tx
deriving DecidableEq, Repr

/-- Why a command is refused (60_exceptions.md R228); each code is given in 30_encoding.md R87. -/
inductive ErrCode where
  | illegal | typeRange | flagIndex | notDispatching | noCounters | select | faulted
deriving DecidableEq, Repr

/-- The response of one command (30_encoding.md R86). -/
inductive Response where
  /-- The command did its work. -/
  | ok
  /-- The command did its work and returns v (RDSTAT only). -/
  | val (v : Word32)
  /-- The command was refused: no state change, no event. -/
  | err (e : ErrCode)
  /-- The command raised the sticky fault in this step. -/
  | fault (c : FaultCode)
deriving DecidableEq, Repr

/-- The causes of a resynchronization (41_framing.md R130). -/
inductive DropCause where
  | framing | checksum | unknownType
deriving DecidableEq, Repr

/-- What a resynchronization left (30_encoding.md R88). -/
inductive DropResult where
  /-- The bytes from offset i were kept. -/
  | shift (i : Nat)
  /-- Everything was discarded. -/
  | empty
deriving DecidableEq, Repr

/-- The output events (30_encoding.md R88). -/
inductive Event where
  /-- A frame handed to the transport's write. -/
  | tx (frame : List Byte)
  /-- Handler h is invoked with a copy of the complete frame. -/
  | deliver (h : HandlerId) (frame : List Byte)
  /-- Observation: a resynchronization. -/
  | drop (cause : DropCause) (result : DropResult)
  /-- Observation: a valid frame of type t with no handler was dropped. -/
  | unregistered (t : Byte)
  /-- Observation: POLL discarded a partial frame. -/
  | timeout
deriving DecidableEq, Repr

/-- The architectural events, the framer's real outputs; the others are observations that a claim about a part without
counters must not require (30_encoding.md R88; notes/assumptions/13.md). -/
def Event.isArchitectural : Event → Bool
  | .tx _ => true
  | .deliver _ _ => true
  | .drop _ _ => false
  | .unregistered _ => false
  | .timeout => false

/-- What one command gives back: exactly one response, and its events in the order emitted (30_encoding.md R86, R88). -/
structure Output where
  response : Response
  events : List Event
deriving DecidableEq, Repr

/-- An input of the block: reset, which is outside the command port (70_reset_and_hazards.md R260), or a command. -/
inductive Input where
  | reset
  | command (c : Command)
deriving DecidableEq, Repr

/-- The whole machine: the parameters, every state element of 10_state.md R20, and the model's own two fields, the inputs
not yet taken and the outputs given so far. -/
structure State where
  /-- The parameters (00_scope.md R8 to R14); no step changes them (notes/assumptions/1.md). -/
  cfg : Config
  /-- phase (R22). -/
  phase : Phase
  /-- count (R23): the bytes accumulated in buf. -/
  count : Nat
  /-- buf (R24): FRAME_SIZE bytes; those at offsets at or beyond count have no meaning. -/
  buf : List Byte
  /-- start_ts (R25): the W-bit clock value of the frame's first byte. -/
  startTs : Nat
  /-- handler[t] (R27): TYPE_COUNT entries. -/
  handlers : List (Option HandlerId)
  /-- tx_flags (R28): bit 7 CRIT, bits 6:4 reserved zero, bits 3:0 UF3..UF0. -/
  txFlags : Byte
  /-- fault (R29). -/
  fault : Option FaultCode
  /-- CNT_* (R30); never read or written when HAS_COUNTERS is false (notes/assumptions/12.md). -/
  counters : Counters
  /-- The inputs presented and not yet taken, oldest first (notes/assumptions/5.md). -/
  inputs : List Input
  /-- One output for each command taken, oldest first (notes/assumptions/7.md). -/
  outputs : List Output
deriving DecidableEq, Repr

/-- Why a step of the model stops. No reachable state stops: these are accesses at offsets that no rule forms
(20_memory.md R51), so a stop is safe (notes/assumptions/9.md). The framer's own sticky fault is no stop: see
`FaultCode`. -/
inductive Fault where
  /-- Raised by RXB when count is no offset of buf, in a state that no run reaches. Safe. -/
  | bufferOverrun
  /-- Raised by RXB's handler lookup and by REG when the table has no entry for a type below TYPE_COUNT, in a state that no
  run reaches. Safe. -/
  | handlerTableOverrun
deriving DecidableEq, Repr

/-- Why the model gives an instruction no meaning. -/
inductive Refusal where
  /-- Raised by an arm of exec whose instruction has no meaning yet. Safe. No arm of this model raises it. -/
  | notModelled (mnemonic : String)
deriving DecidableEq, Repr

/-- Every counter at its reset value 0 (10_state.md R30). -/
def Counters.zero : Counters :=
  { resync := 0, checksum := 0, timeout := 0, deliver := 0, unkType := 0, unreg := 0, tx := 0 }

/-- The state after reset with parameters c (10_state.md R33, 70_reset_and_hazards.md R260), nothing presented and nothing
given back. buf and start_ts are unspecified by the spec: DESIGN CHOICE, zero bytes and 0 (notes/assumptions/3.md,
notes/assumptions/4.md). -/
def State.resetWith (c : Config) : State :=
  { cfg := c
    phase := .idle
    count := 0
    buf := List.replicate c.frameSize 0
    startTs := 0
    handlers := List.replicate c.typeCount none
    txFlags := 0x00
    fault := none
    counters := Counters.zero
    inputs := []
    outputs := [] }

/-- The state after reset in the test configuration TC (00_scope.md section 6; notes/assumptions/1.md). -/
def State.reset : State := State.resetWith Config.tc

end Sys2Proof.Machine
end

