-- ==== Sys2Proof/Machine/Checksum.lean ====
section
/-! DEFINITION. The ChecksumEngine (spec/40_checksum.md R100 to R105): a pure function of a byte sequence. -/

namespace Sys2Proof.Machine

open Sys2Proof

/-- One round of the loop of R101: sum1 takes the byte, then sum2 takes the new sum1, each mod 255. -/
def fletcherStep (sums : Nat × Nat) (b : Byte) : Nat × Nat :=
  let sum1 := (sums.1 + b.toNat) % 255
  (sum1, (sums.2 + sum1) % 255)

/-- Fletcher(s) = (sum1, sum2) (R101), from initial sums 0. -/
def fletcher (s : List Byte) : Nat × Nat := s.foldl fletcherStep (0, 0)

/-- The 16-bit checksum value, sum2 * 256 + sum1 (R102). -/
def checksumValue (s : List Byte) : Nat := (fletcher s).2 * 256 + (fletcher s).1

/-- The two checksum bytes in wire order: sum1, the low byte, then sum2 (R102, 20_memory.md R54). -/
def checksumBytes (s : List Byte) : List Byte :=
  [BitVec.ofNat 8 (fletcher s).1, BitVec.ofNat 8 (fletcher s).2]

/-- Verify(f) with payload capacity P: Fletcher(f[0..P+2]) = (f[P+3], f[P+4]) (R104). -/
def verify (payloadCap : Nat) (f : List Byte) : Bool :=
  f[payloadCap + 3]?.map BitVec.toNat == some (fletcher (f.take (payloadCap + 3))).1 &&
  f[payloadCap + 4]?.map BitVec.toNat == some (fletcher (f.take (payloadCap + 3))).2

end Sys2Proof.Machine
end

