-- ==== Sys2Proof/Machine/Flags.lean ====
section
/-! DEFINITION. The flag byte and the codes software reads: the fields of tx_flags (spec/10_state.md R28,
spec/30_encoding.md R73), the phase and fault codes (spec/10_state.md R22, R29), the response codes (spec/30_encoding.md
R87) and the status word (spec/44_status.md R205). -/

namespace Sys2Proof.Machine

open Sys2Proof

/-- A byte with bit k written to v and the other bits kept. -/
def setBit (x : Byte) (k : Nat) (v : Bool) : Byte :=
  if v then x ||| BitVec.twoPow 8 k else x &&& ~~~ BitVec.twoPow 8 k

/-- User flag i of a flags byte, bits 3:0 (R73). -/
def userFlag (flags : Byte) (i : Nat) : Bool := decide (i < 4) && flags.getLsbD i

/-- The critical indicator, bit 7 (R73). -/
def critFlag (flags : Byte) : Bool := flags.getLsbD 7

/-- The reserved bits 6:4 (R73, R74). -/
def reservedFlags (flags : Byte) : BitVec 3 := flags.extractLsb' 4 3

/-- SETF's range of flag indices, [0, 3] (43_sender.md R185). -/
def userFlagInRange (i : BitVec 3) : Bool := decide (i.toNat ≤ 3)

/-- The flags byte with user flag i written to v (43_sender.md R185). -/
def writeUserFlag (flags : Byte) (i : BitVec 3) (v : Bool) : Byte := setBit flags i.toNat v

/-- The flags byte with the critical indicator written to v (43_sender.md R186). -/
def writeCrit (flags : Byte) (v : Bool) : Byte := setBit flags 7 v

/-- The phase's code in the status word (10_state.md R22). -/
def Phase.code : Phase → BitVec 2
  | .idle => 0
  | .accumulating => 1
  | .dispatching => 2

/-- The fault element's 2-bit code (10_state.md R29). -/
def faultCode : Option FaultCode → BitVec 2
  | none => 0
  | some .reentrant => 1
  | some .payloadShort => 2

/-- The code of a refusal (30_encoding.md R87). -/
def ErrCode.code : ErrCode → BitVec 8
  | .illegal => 0x10
  | .typeRange => 0x11
  | .flagIndex => 0x12
  | .notDispatching => 0x13
  | .noCounters => 0x14
  | .select => 0x15
  | .faulted => 0x16

/-- The response's code (30_encoding.md R87). -/
def Response.code : Response → BitVec 8
  | .ok => 0x00
  | .val _ => 0x01
  | .err e => e.code
  | .fault .reentrant => 0x21
  | .fault .payloadShort => 0x22

/-- STATUS = (tx_flags, zext_16(count), 0b0000, fault, phase_code), most significant first (44_status.md R205). -/
def statusWord (s : State) : Word32 :=
  s.txFlags ++ BitVec.ofNat 16 s.count ++ 0#4 ++ faultCode s.fault ++ s.phase.code

end Sys2Proof.Machine
end

