-- ==== Sys2Proof/Machine/Operands.lean ====
section
/-! DEFINITION. The operand forms: the clock operand and elapsed time (spec/30_encoding.md R81, spec/41_framing.md R136),
the type operand's range (spec/42_dispatch.md R160), SEND's length and payload operands (spec/43_sender.md R180, R181), and
RDSTAT's select (spec/44_status.md R206, spec/10_state.md R30). -/

namespace Sys2Proof.Machine

open Sys2Proof

/-- The value a NOW operand has on the W-bit sideband (30_encoding.md R81; notes/assumptions/11.md). -/
def clockValue (c : Config) (now : Nat) : Nat := (BitVec.ofNat c.clockWidth now).toNat

/-- now -_W start, the W-bit modular difference (41_framing.md R136). -/
def elapsed (c : Config) (now start : Nat) : Nat :=
  (BitVec.ofNat c.clockWidth now - BitVec.ofNat c.clockWidth start).toNat

/-- A type in [0, TYPE_COUNT) (30_encoding.md R72). -/
def typeInRange (c : Config) (t : Byte) : Bool := decide (t.toNat < c.typeCount)

/-- min(LEN, P), the number of caller bytes to copy (43_sender.md R181). -/
def copyLength (c : Config) (len : Nat) : Nat := min len c.payloadCap

/-- A payload operand that is present and shorter than the bytes to copy (43_sender.md R180). -/
def payloadTooShort (c : Config) (payload : Option (List Byte)) (len : Nat) : Bool :=
  match payload with
  | none => false
  | some p => decide (p.length < copyLength c len)

/-- The P payload bytes of a sent frame: the copied bytes, then zeros; all zeros when the payload is absent (43_sender.md
R181). -/
def payloadField (c : Config) (payload : Option (List Byte)) (len : Nat) : List Byte :=
  match payload with
  | none => List.replicate c.payloadCap 0x00
  | some p => p.take (copyLength c len) ++ List.replicate (c.payloadCap - copyLength c len) 0x00

/-- The counter that RDSTAT select s names (10_state.md R30), for s in 1..7. -/
def counterSelect (s : Byte) : Option CounterName :=
  match s.toNat with
  | 1 => some .resync
  | 2 => some .checksum
  | 3 => some .timeout
  | 4 => some .deliver
  | 5 => some .unkType
  | 6 => some .unreg
  | 7 => some .tx
  | _ => none

/-- A counter's value. -/
def Counters.get (c : Counters) : CounterName → Word32
  | .resync => c.resync
  | .checksum => c.checksum
  | .timeout => c.timeout
  | .deliver => c.deliver
  | .unkType => c.unkType
  | .unreg => c.unreg
  | .tx => c.tx

/-- The counters with one of them increased by 1 mod 2^32 (44_status.md R200). -/
def Counters.incr (c : Counters) : CounterName → Counters
  | .resync => { c with resync := c.resync + 1 }
  | .checksum => { c with checksum := c.checksum + 1 }
  | .timeout => { c with timeout := c.timeout + 1 }
  | .deliver => { c with deliver := c.deliver + 1 }
  | .unkType => { c with unkType := c.unkType + 1 }
  | .unreg => { c with unreg := c.unreg + 1 }
  | .tx => { c with tx := c.tx + 1 }

end Sys2Proof.Machine
end

