-- ==== Sys2Proof/Machine/Ops.lean ====
section
/-! DEFINITION. The named operations over the state that the commands share: the output port, the counters, the fault entry
(spec/60_exceptions.md R232 to R234), the receive buffer and resynchronization (spec/41_framing.md R121 to R133), the
handler table, handler invocation and its return (spec/42_dispatch.md R165, R166), the transmit frame (spec/43_sender.md
R180), and reset (spec/70_reset_and_hazards.md R260). -/

namespace Sys2Proof.Machine

open Sys2Proof

/-- The outcomes of this machine. -/
abbrev Result := Host.Outcome State Fault Refusal

/-! ## The output port -/

/-- The command's one response and its events are given back; nothing else changes (30_encoding.md R86, R88). -/
def State.respond (s : State) (r : Response) (events : List Event := []) : State :=
  { s with outputs := s.outputs ++ [⟨r, events⟩] }

/-- A refused command: no state change, no event (60_exceptions.md R228). -/
def State.refuse (s : State) (e : ErrCode) : State := s.respond (.err e)

/-! ## Counters -/

/-- CNT_x +1 (44_status.md R200): nothing when HAS_COUNTERS is false. -/
def State.bump (s : State) (n : CounterName) : State :=
  if s.cfg.hasCounters then { s with counters := s.counters.incr n } else s

/-! ## Faults: the entry into the sticky fault state, and the two tests that precede a command's own work -/

/-- raise Fault(code) (60_exceptions.md R232): fault is set, FAULT(code) is the response, nothing else changes. Only reset
clears it. -/
def State.raise (s : State) (code : FaultCode) : State := { s with fault := some code }.respond (.fault code)

/-- While fault != 0 the command is refused with ERR_FAULTED (60_exceptions.md R234); else it does its work. -/
def unlessFaulted (s : State) (work : Result) : Result :=
  if s.fault.isSome then .next (s.refuse .faulted) else work

/-- While a handler runs the command raises REENTRANT (60_exceptions.md R233); else it does its work. -/
def unlessDispatching (s : State) (work : Result) : Result :=
  if s.phase = .dispatching then .next (s.raise .reentrant) else work

/-! ## The receive buffer -/

/-- The receive path's return to Idle: count 0, phase Idle, nothing else (70_reset_and_hazards.md R262). -/
def State.toIdle (s : State) : State := { s with phase := .idle, count := 0 }

/-- The start of a frame: from Idle, the clock value is recorded and the phase becomes Accumulating; otherwise nothing
(41_framing.md R122). -/
def State.startFrame (s : State) (now : Nat) : State :=
  if s.phase = .idle then { s with phase := .accumulating, startTs := clockValue s.cfg now } else s

/-- buf[count] <- b, count <- count + 1 (41_framing.md R121), when count is an offset of buf. -/
def State.append (s : State) (b : Byte) : Option State :=
  if s.count < s.buf.length then some { s with buf := s.buf.set s.count b, count := s.count + 1 } else none

/-- buf[0] = MARKER (41_framing.md R123). -/
def State.markerOk (s : State) : Bool := s.buf[0]? == some s.cfg.marker

/-- buf[0..FRAME_SIZE-1]. -/
def State.frame (s : State) : List Byte := s.buf.take s.cfg.frameSize

/-- The type field of the buffered frame, buf[1] (30_encoding.md R70). -/
def State.frameType (s : State) : Byte := s.buf.getD 1 0

/-- The least offset j in [1, count-1] with buf[j] = MARKER (41_framing.md R131). -/
def State.nextMarker (s : State) : Option Nat :=
  (List.range s.count).find? fun j => decide (1 ≤ j) && s.buf[j]? == some s.cfg.marker

/-- The bytes at offsets i to count-1 move to offsets 0 to count-1-i in order and count becomes count - i; the bytes at
later offsets, the phase and start_ts are kept (41_framing.md R132). -/
def State.shiftBuf (s : State) (i : Nat) : State :=
  { s with
    buf := (s.buf.drop i).take (s.count - i) ++ s.buf.drop (s.count - i)
    count := s.count - i }

/-- Resync(cause), and the response OK that follows each call (41_framing.md R130 to R133). -/
def State.resync (s : State) (cause : DropCause) : State :=
  match s.nextMarker with
  | some i => ((s.bump .resync).shiftBuf i).respond .ok [.drop cause (.shift i)]
  | none => (s.bump .resync).toIdle.respond .ok [.drop cause .empty]

/-! ## The handler table, a handler's invocation and its return -/

/-- handler[t] <- some h (42_dispatch.md R160), when the table has the entry. -/
def State.setHandler (s : State) (t : Byte) (h : HandlerId) : Option State :=
  if t.toNat < s.handlers.length then some { s with handlers := s.handlers.set t.toNat (some h) } else none

/-- The handler is invoked (42_dispatch.md R165, 60_exceptions.md R235): the event carries a copy of the frame, the phase
becomes Dispatching, count and buf stay. -/
def State.deliver (s : State) (h : HandlerId) : State :=
  { s.bump .deliver with phase := .dispatching }.respond .ok [.deliver h s.frame]

/-- A valid frame with no handler is dropped whole (42_dispatch.md R167). -/
def State.dropUnregistered (s : State) (t : Byte) : State :=
  (s.bump .unreg).toIdle.respond .ok [.unregistered t]

/-- Complete(t), and the response OK that follows it (42_dispatch.md R165, R167). -/
def State.complete (s : State) (t : Byte) : Result :=
  match s.handlers[t.toNat]? with
  | some (some h) => .next (s.deliver h)
  | some none => .next (s.dropUnregistered t)
  | none => .fault .handlerTableOverrun

/-- The return from a handler (42_dispatch.md R166, 60_exceptions.md R236): Idle and count 0, nothing else. -/
def State.endDispatch (s : State) : State := s.toIdle.respond .ok

/-- What RXB does after its append (41_framing.md R120): the marker check (R123), completion (R124), the checksum check
(R125), the type check (R126), then the handler lookup (R127). -/
def State.afterAppend (s : State) : Result :=
  if !s.markerOk then .next (s.resync .framing)
  else if s.count < s.cfg.frameSize then .next (s.respond .ok)
  else if !verify s.cfg.payloadCap s.frame then .next ((s.bump .checksum).resync .checksum)
  else if !typeInRange s.cfg s.frameType then .next ((s.bump .unkType).resync .unknownType)
  else s.complete s.frameType

/-! ## The partial frame's timeout -/

/-- POLL's test: Accumulating, and more than READ_TIMEOUT since the frame's start (41_framing.md R135, R136). -/
def State.timedOut (s : State) (now : Nat) : Bool :=
  decide (s.phase = .accumulating) && decide (s.cfg.readTimeout < elapsed s.cfg now s.startTs)

/-- The partial frame is discarded (41_framing.md R135). -/
def State.discardPartial (s : State) : State := (s.toIdle.bump .timeout).respond .ok [.timeout]

/-! ## The transmit frame -/

/-- The bytes a frame's checksum covers: marker, type, flags, payload (43_sender.md R180, 30_encoding.md R77). -/
def coveredBytes (c : Config) (flags t : Byte) (payload : Option (List Byte)) (len : Nat) : List Byte :=
  [c.marker, t, flags] ++ payloadField c payload len

/-- The frame that SEND builds (43_sender.md R180, R182; layout 30_encoding.md R70). -/
def buildFrame (c : Config) (flags t : Byte) (payload : Option (List Byte)) (len : Nat) : List Byte :=
  coveredBytes c flags t payload len ++ checksumBytes (coveredBytes c flags t payload len)

/-- The frame is handed to the transport in one TX event (43_sender.md R184). -/
def State.transmit (s : State) (frame : List Byte) : State := (s.bump .tx).respond .ok [.tx frame]

/-! ## Reset -/

/-- Reset as an input (70_reset_and_hazards.md R260): every state element at its reset value, no event, no response. The
parameters, the inputs still waiting and the outputs already given are no state elements and stay
(notes/assumptions/8.md). -/
def State.applyReset (s : State) : State :=
  { State.resetWith s.cfg with inputs := s.inputs, outputs := s.outputs }

end Sys2Proof.Machine
end

