-- ==== Sys2Proof/Machine/Handlers.lean ====
section
/-! DEFINITION. The dispatcher's commands HRET and REG (spec/42_dispatch.md R160, R166). -/

namespace Sys2Proof.Machine

open Sys2Proof

/-- HRET (42_dispatch.md R166). -/
def execHret (s : State) : Result :=
  unlessFaulted s <|
    if s.phase = .dispatching then .next s.endDispatch else .next (s.refuse .notDispatching)

/-- REG t, h (42_dispatch.md R160): allowed in every phase (R162). -/
def execReg (t : Byte) (h : HandlerId) (s : State) : Result :=
  unlessFaulted s <|
    if typeInRange s.cfg t then
      match s.setHandler t h with
      | some s' => .next (s'.respond .ok)
      | none => .fault .handlerTableOverrun
    else .next (s.refuse .typeRange)

end Sys2Proof.Machine
end

