-- ==== Sys2Proof/Machine/Receive.lean ====
section
/-! DEFINITION. The receive commands RXB and POLL (spec/41_framing.md R120, R135). -/

namespace Sys2Proof.Machine

open Sys2Proof

/-- RXB b @now (41_framing.md R120). -/
def execRxb (b : Byte) (now : Nat) (s : State) : Result :=
  unlessFaulted s <| unlessDispatching s <|
    match (s.startFrame now).append b with
    | some s' => s'.afterAppend
    | none => .fault .bufferOverrun

/-- POLL @now (41_framing.md R135). -/
def execPoll (now : Nat) (s : State) : Result :=
  unlessFaulted s <| unlessDispatching s <|
    if s.timedOut now then .next s.discardPartial else .next (s.respond .ok)

end Sys2Proof.Machine
end

