-- ==== Sys2Proof/Machine/Sender.lean ====
section
/-! DEFINITION. The sender's commands SEND, SETF and SETC (spec/43_sender.md R180, R185, R186). -/

namespace Sys2Proof.Machine

open Sys2Proof

/-- SEND t, payload, len (43_sender.md R180): the type is not checked, and the receive state is not touched (R184). -/
def execSend (t : Byte) (payload : Option (List Byte)) (len : Nat) (s : State) : Result :=
  unlessFaulted s <| unlessDispatching s <|
    if payloadTooShort s.cfg payload len then .next (s.raise .payloadShort)
    else .next (s.transmit (buildFrame s.cfg s.txFlags t payload len))

/-- SETF i, v (43_sender.md R185). -/
def execSetf (i : BitVec 3) (v : Bool) (s : State) : Result :=
  unlessFaulted s <|
    if userFlagInRange i then .next ({ s with txFlags := writeUserFlag s.txFlags i v }.respond .ok)
    else .next (s.refuse .flagIndex)

/-- SETC v (43_sender.md R186). -/
def execSetc (v : Bool) (s : State) : Result :=
  unlessFaulted s <| .next ({ s with txFlags := writeCrit s.txFlags v }.respond .ok)

end Sys2Proof.Machine
end

