-- ==== Sys2Proof/Machine/Status.lean ====
section
/-! DEFINITION. The observability command RDSTAT (spec/44_status.md R206). -/

namespace Sys2Proof.Machine

open Sys2Proof

/-- RDSTAT s (44_status.md R206): the one command that works when faulted (60_exceptions.md R234). -/
def execRdstat (sel : Byte) (s : State) : Result :=
  if sel = 0 then .next (s.respond (.val (statusWord s)))
  else
    match counterSelect sel with
    | none => .next (s.refuse .select)
    | some n => if s.cfg.hasCounters then .next (s.respond (.val (s.counters.get n))) else .next (s.refuse .noCounters)

end Sys2Proof.Machine
end

