-- ==== Sys2Proof/Machine/Dispatch.lean ====
section
/-! DEFINITION. The meaning of each instruction, one arm a constructor. -/

namespace Sys2Proof.Machine

open Sys2Proof

def exec (i : Instr) (s : State) : Host.Outcome State Fault Refusal :=
  match i with
  | .rxb b now => Sys2Proof.Machine.execRxb b now s
  | .poll now => Sys2Proof.Machine.execPoll now s
  | .hret => Sys2Proof.Machine.execHret s
  | .reg t h => Sys2Proof.Machine.execReg t h s
  | .send t payload len => Sys2Proof.Machine.execSend t payload len s
  | .setf k v => Sys2Proof.Machine.execSetf k v s
  | .setc v => Sys2Proof.Machine.execSetc v s
  | .rdstat sel => Sys2Proof.Machine.execRdstat sel s

end Sys2Proof.Machine
end

