-- ==== Sys2Proof/Machine/Port.lean ====
section
/-! DEFINITION. The command port (spec/30_encoding.md Part B, spec/60_exceptions.md R230, R250): taking the oldest input,
decoding a command word, and what an illegal word or an empty port does. -/

namespace Sys2Proof.Machine

open Sys2Proof

/-- A command is decoded first and an illegal word is refused before any other check, the fault check included
(30_encoding.md R83, R84; 60_exceptions.md R230); else its instruction is executed. -/
def runCommand (c : Command) (s : State) : Result :=
  match decode c with
  | .error _ => .next (s.refuse .illegal)
  | .ok i => exec i s

/-- One input of the block: reset (70_reset_and_hazards.md R260) or a command. -/
def runInput (i : Input) (s : State) : Result :=
  match i with
  | .reset => .next s.applyReset
  | .command c => runCommand c s

/-- The oldest input presented is taken and acted on. With none presented the framer does nothing (60_exceptions.md R250;
notes/assumptions/6.md). -/
def takeInput (s : State) : Result :=
  match s.inputs with
  | [] => .next s
  | i :: rest => runInput i { s with inputs := rest }

/-- A further input is presented, behind those already waiting. -/
def State.present (s : State) (i : Input) : State := { s with inputs := s.inputs ++ [i] }

/-- A command is presented in front of those waiting, so that the next step takes it. -/
def State.presentNext (s : State) (c : Command) : State := { s with inputs := .command c :: s.inputs }

end Sys2Proof.Machine
end

