-- ==== Sys2Proof/Machine/Step.lean ====
section
/-! DEFINITION. One step of the machine, and the placing of one command for the next step. -/

namespace Sys2Proof.Machine

open Sys2Proof

/-- One command, or one reset, is one atomic step (spec/20_memory.md R60). -/
def step (s : State) : Host.Outcome State Fault Refusal := takeInput s

/-- The command of a table word is presented, so that the next step takes exactly it (notes/assumptions/15.md). -/
def State.withFetchWord (s : State) (nbits w : Nat) : State := s.presentNext (Command.ofTableWord nbits w)

end Sys2Proof.Machine
end

