-- ==== Sys2Proof/Machine/Update.lean ====
section
/-! DEFINITION. The pseudo-operation UPDATE (spec/30_encoding.md R90): the host's expansion of one Update call into RXB, HRET
and POLL commands. The framer itself only sees the commands. -/

namespace Sys2Proof.Machine

open Sys2Proof

/-- What a handler's code issues, given its identity and the frame it was invoked with; the HRET that ends the invocation is
not part of it (42_dispatch.md R169; notes/assumptions/14.md). -/
abbrev HandlerCode := HandlerId → List Byte → List Instr

/-- Instructions one after another; the first that stops, stops the run. -/
def runInstrs : List Instr → State → Result
  | [], s => .next s
  | i :: rest, s =>
    match exec i s with
    | .next t => runInstrs rest t
    | .fault r => .fault r
    | .refused r => .refused r

/-- The Deliver event among some events. -/
def deliverIn : List Event → Option (HandlerId × List Byte)
  | [] => none
  | .deliver h f :: _ => some (h, f)
  | _ :: rest => deliverIn rest

/-- The handler invocation that the last command started, if it started one. -/
def State.invoked (s : State) : Option (HandlerId × List Byte) :=
  match s.outputs.getLast? with
  | some o => deliverIn o.events
  | none => none

/-- What the host issues after an RXB: if the RXB started a handler, the handler's commands and then HRET (R90). -/
def afterRxb (code : HandlerCode) (t : State) : List Instr :=
  match t.invoked with
  | some (h, f) => code h f ++ [.hret]
  | none => []

/-- The bytes of one UPDATE, in arrival order, each an RXB at the same clock value (R90). -/
def drain (code : HandlerCode) (now : Nat) : List Byte → State → Result
  | [], s => .next s
  | b :: rest, s =>
    match exec (.rxb b now) s with
    | .next t =>
      match runInstrs (afterRxb code t) t with
      | .next u => drain code now rest u
      | .fault r => .fault r
      | .refused r => .refused r
    | .fault r => .fault r
    | .refused r => .refused r

/-- UPDATE @now, bytes (R90): a POLL when no bytes are available, else the bytes and no POLL. -/
def update (code : HandlerCode) (now : Nat) (bytes : List Byte) (s : State) : Result :=
  match bytes with
  | [] => exec (.poll now) s
  | b :: rest => drain code now (b :: rest) s

end Sys2Proof.Machine
end

