-- ==== Sys2Proof/Machine/Assembler.lean ====
section
/-! DEFINITION. The assembler (spec/30_encoding.md R89 to R91): the forms with their numbers as written, which numbers are
assembly errors, the pseudo-operations, and the text of a line. -/

namespace Sys2Proof.Machine

open Sys2Proof

/-- A line of assembler, its numbers as natural numbers (R89, R90, R91). -/
inductive AsmLine where
  | rxb (b now : Nat)
  | poll (now : Nat)
  | hret
  | reg (t : Nat) (h : HandlerId)
  | send (t : Nat) (payload : Option (List Nat)) (len : Nat)
  | setf (i v : Nat)
  | setc (v : Nat)
  | rdstat (s : Nat)
  | sendz (t : Nat)
  | clrf (i : Nat)
  | clrc
  | status
  | update (now : Nat) (bytes : List Nat)
deriving DecidableEq, Repr

/-- What a line stands for: one command, or the UPDATE whose expansion depends on what is delivered (R90). -/
inductive AsmMeaning where
  | command (i : Instr)
  | update (now : Nat) (bytes : List Byte)
deriving DecidableEq, Repr

/-- An 8-bit operand; a number above 255 is an assembly error (R89). -/
def asmByte (n : Nat) : Option Byte := if n < 256 then some (BitVec.ofNat 8 n) else none

/-- A 3-bit operand; a number above 7 is an assembly error (R89). -/
def asmIndex (n : Nat) : Option (BitVec 3) := if n < 8 then some (BitVec.ofNat 3 n) else none

/-- A 1-bit operand; a number above 1 is an assembly error (R89). -/
def asmBit (n : Nat) : Option Bool := if n < 2 then some (decide (n = 1)) else none

/-- A list of bytes. -/
def asmBytes : List Nat → Option (List Byte)
  | [] => some []
  | n :: rest => do
    let b ← asmByte n
    let bs ← asmBytes rest
    some (b :: bs)

/-- A payload operand: absent, or a list of bytes (R89). -/
def asmPayload : Option (List Nat) → Option (Option (List Byte))
  | none => some none
  | some p => (asmBytes p).map some

/-- The command a line stands for, or none where an operand does not fit its field (R89, R91). -/
def assemble : AsmLine → Option AsmMeaning
  | .rxb b now => (asmByte b).map fun b => .command (.rxb b now)
  | .poll now => some (.command (.poll now))
  | .hret => some (.command .hret)
  | .reg t h => (asmByte t).map fun t => .command (.reg t h)
  | .send t payload len => do
    let t ← asmByte t
    let payload ← asmPayload payload
    some (.command (.send t payload len))
  | .setf i v => do
    let i ← asmIndex i
    let v ← asmBit v
    some (.command (.setf i v))
  | .setc v => (asmBit v).map fun v => .command (.setc v)
  | .rdstat s => (asmByte s).map fun s => .command (.rdstat s)
  | .sendz t => (asmByte t).map fun t => .command (.send t none 0)
  | .clrf i => (asmIndex i).map fun i => .command (.setf i false)
  | .clrc => some (.command (.setc false))
  | .status => some (.command (.rdstat 0))
  | .update now bytes => (asmBytes bytes).map fun bs => .update now bs

/-! ## The text of a line (R89) -/

/-- The tokens of a line. -/
inductive AsmToken where
  | num (n : Nat)
  | name (cs : List Char)
  | at
  | comma
  | openBracket
  | closeBracket
  | dash
deriving DecidableEq, Repr

/-- The value of a digit in the given base. -/
def digitValue (base : Nat) (c : Char) : Option Nat :=
  let n := c.toNat
  let d :=
    if 48 ≤ n ∧ n ≤ 57 then some (n - 48)
    else if 65 ≤ n ∧ n ≤ 70 then some (n - 55)
    else if 97 ≤ n ∧ n ≤ 102 then some (n - 87)
    else none
  match d with
  | some k => if k < base then some k else none
  | none => none

/-- The number with the given digits, most significant first, after the number acc. -/
def digitsValue (base acc : Nat) : List Char → Option Nat
  | [] => some acc
  | c :: rest =>
    match digitValue base c with
    | some d => digitsValue base (acc * base + d) rest
    | none => none

/-- A word of letters and digits: a hexadecimal number after 0x, a decimal number after a digit, else a name (R89). -/
def wordToken (cs : List Char) : Option AsmToken :=
  match cs with
  | [] => none
  | '0' :: 'x' :: d :: rest => (digitsValue 16 0 (d :: rest)).map AsmToken.num
  | c :: rest =>
    if 48 ≤ c.toNat ∧ c.toNat ≤ 57 then (digitsValue 10 0 (c :: rest)).map AsmToken.num else some (.name (c :: rest))

/-- The token of a punctuation character. -/
def punctuation : Char → Option AsmToken
  | '@' => some .at
  | ',' => some .comma
  | '[' => some .openBracket
  | ']' => some .closeBracket
  | '-' => some .dash
  | _ => none

/-- The tokens got so far with the word under way ended. -/
def endWord (word : List Char) (rest : Option (List AsmToken)) : Option (List AsmToken) :=
  if word = [] then rest
  else do
    let t ← wordToken word
    let ts ← rest
    some (t :: ts)

/-- The tokens of a text, where `word` holds the characters of the word under way. -/
def tokens (word : List Char) : List Char → Option (List AsmToken)
  | [] => endWord word (some [])
  | c :: rest =>
    if c = ' ' then endWord word (tokens [] rest)
    else
      match punctuation c with
      | some p => endWord word ((tokens [] rest).map fun ts => p :: ts)
      | none => tokens (word ++ [c]) rest

/-- The numbers of a bracketed list after its first one, and the tokens after the closing bracket. -/
def listTail : List AsmToken → Option (List Nat × List AsmToken)
  | .closeBracket :: rest => some ([], rest)
  | .comma :: .num n :: rest => (listTail rest).map fun r => (n :: r.1, r.2)
  | _ => none

/-- The numbers of a bracketed list after its opening bracket, and the tokens after the closing one. -/
def listBody : List AsmToken → Option (List Nat × List AsmToken)
  | .closeBracket :: rest => some ([], rest)
  | .num n :: rest => (listTail rest).map fun r => (n :: r.1, r.2)
  | _ => none

/-- The line with the given mnemonic and operand tokens; `handlers` gives the identity a handler name stands for. -/
def parseOperands (handlers : List Char → Option HandlerId) (mnemonic : List Char) (ops : List AsmToken) :
    Option AsmLine :=
  if mnemonic = ['R', 'X', 'B'] then
    match ops with
    | [.num b, .at, .num n] => some (.rxb b n)
    | _ => none
  else if mnemonic = ['P', 'O', 'L', 'L'] then
    match ops with
    | [.at, .num n] => some (.poll n)
    | _ => none
  else if mnemonic = ['H', 'R', 'E', 'T'] then
    match ops with
    | [] => some .hret
    | _ => none
  else if mnemonic = ['R', 'E', 'G'] then
    match ops with
    | [.num t, .comma, .name h] => (handlers h).map fun h => .reg t h
    | _ => none
  else if mnemonic = ['S', 'E', 'N', 'D'] then
    match ops with
    | [.num t, .comma, .dash, .comma, .num len] => some (.send t none len)
    | .num t :: .comma :: .openBracket :: rest =>
      match listBody rest with
      | some (p, [.comma, .num len]) => some (.send t (some p) len)
      | _ => none
    | _ => none
  else if mnemonic = ['S', 'E', 'T', 'F'] then
    match ops with
    | [.num i, .comma, .num v] => some (.setf i v)
    | _ => none
  else if mnemonic = ['S', 'E', 'T', 'C'] then
    match ops with
    | [.num v] => some (.setc v)
    | _ => none
  else if mnemonic = ['R', 'D', 'S', 'T', 'A', 'T'] then
    match ops with
    | [.num s] => some (.rdstat s)
    | _ => none
  else if mnemonic = ['S', 'E', 'N', 'D', 'Z'] then
    match ops with
    | [.num t] => some (.sendz t)
    | _ => none
  else if mnemonic = ['C', 'L', 'R', 'F'] then
    match ops with
    | [.num i] => some (.clrf i)
    | _ => none
  else if mnemonic = ['C', 'L', 'R', 'C'] then
    match ops with
    | [] => some .clrc
    | _ => none
  else if mnemonic = ['S', 'T', 'A', 'T', 'U', 'S'] then
    match ops with
    | [] => some .status
    | _ => none
  else if mnemonic = ['U', 'P', 'D', 'A', 'T', 'E'] then
    match ops with
    | .at :: .num n :: .comma :: .openBracket :: rest =>
      match listBody rest with
      | some (bytes, []) => some (.update n bytes)
      | _ => none
    | _ => none
  else none

/-- The line that a text is, or none where it has none of the forms (R89, R90, R91). -/
def parseLine (handlers : List Char → Option HandlerId) (text : List Char) : Option AsmLine :=
  match tokens [] text with
  | some (.name mnemonic :: ops) => parseOperands handlers mnemonic ops
  | _ => none

end Sys2Proof.Machine
end

