-- ==== Sys2Proof/Safety.lean ====
section
/-! DEFINITION. What a good state of the framer is: the structural form of the state and the invariants of
spec/10_state.md R26. -/

namespace Sys2Proof.Safety

open Sys2Proof Sys2Proof.Machine

/-- The state's shape: legal parameters, FRAME_SIZE buffer bytes (10_state.md R24), TYPE_COUNT handler entries (R27), a
W-bit start timestamp (R25). -/
structure Shape (s : State) : Prop where
  legal : s.cfg.Legal
  buf : s.buf.length = s.cfg.frameSize
  handlers : s.handlers.length = s.cfg.typeCount
  startTs : s.startTs < 2 ^ s.cfg.clockWidth

/-- I-1 (10_state.md R26): Idle if and only if count = 0. -/
abbrev IdleIffEmpty (s : State) : Prop := s.phase = .idle ↔ s.count = 0

/-- I-2 (10_state.md R26): Accumulating holds 1 to FRAME_SIZE - 1 bytes, the first of them MARKER. -/
abbrev PartialFrame (s : State) : Prop :=
  s.phase = .accumulating → 1 ≤ s.count ∧ s.count ≤ s.cfg.frameSize - 1 ∧ s.buf[0]? = some s.cfg.marker

/-- I-3 (10_state.md R26): Dispatching holds one complete valid frame of a type in range. -/
abbrev HeldFrame (s : State) : Prop :=
  s.phase = .dispatching →
    s.count = s.cfg.frameSize ∧ verify s.cfg.payloadCap s.frame = true ∧
      s.frameType.toNat < s.cfg.typeCount ∧ s.buf[0]? = some s.cfg.marker

/-- I-4 (10_state.md R26): the reserved bits of tx_flags are zero. -/
abbrev ReservedZero (s : State) : Prop := reservedFlags s.txFlags = 0

/-- The invariant of the machine: its shape and I-1 to I-4 of 10_state.md R26. (I-5 is about steps: a statement.) -/
structure Inv (s : State) : Prop where
  shape : Shape s
  idle : IdleIffEmpty s
  partialFrame : PartialFrame s
  held : HeldFrame s
  reserved : ReservedZero s

/-! ## The terms statements are written in -/

/-- From s to t exactly one output is given back: the response r and the events evs. Its architectural events are those of
evs; all of evs is claimed only for a build with counters, since a claim must not require observation events on a part
without (30_encoding.md R88; notes/assumptions/13.md). -/
def Gives (s t : State) (r : Response) (evs : List Event) : Prop :=
  ∃ o : Output, t.outputs = s.outputs ++ [o] ∧ o.response = r ∧
    o.events.filter Event.isArchitectural = evs.filter Event.isArchitectural ∧
    (s.cfg.hasCounters = true → o.events = evs)

/-- From s to t the counters named in ns grow by 1 mod 2^32 when HAS_COUNTERS, and every other counter is kept
(44_status.md R200). -/
def Counts (s t : State) (ns : List CounterName) : Prop :=
  ∀ n : CounterName,
    t.counters.get n = if s.cfg.hasCounters = true ∧ n ∈ ns then s.counters.get n + 1 else s.counters.get n

/-- The receive state (phase, count, buf, start_ts) is kept. -/
abbrev KeepsReceive (s t : State) : Prop :=
  t.phase = s.phase ∧ t.count = s.count ∧ t.buf = s.buf ∧ t.startTs = s.startTs

/-- What the receive commands never write is kept: parameters, handler table, tx_flags, fault, waiting inputs. -/
abbrev KeepsRest (s t : State) : Prop :=
  t.cfg = s.cfg ∧ t.handlers = s.handlers ∧ t.txFlags = s.txFlags ∧ t.fault = s.fault ∧ t.inputs = s.inputs

/-- Nothing changes but the output given back. -/
abbrev OnlyAnswers (s t : State) (r : Response) : Prop :=
  t = { s with outputs := s.outputs ++ [⟨r, []⟩] }

/-- The frame that one more byte b completes when count = FRAME_SIZE - 1: the bytes accumulated, in arrival order, then b
(41_framing.md R121). -/
def completedBy (s : State) (b : Byte) : List Byte := s.buf.take s.count ++ [b]

/-- j is the least offset from 1 on at which f holds MARKER (41_framing.md R131). -/
def LeastMarker (marker : Byte) (f : List Byte) (j : Nat) : Prop :=
  1 ≤ j ∧ f[j]? = some marker ∧ ∀ k, 1 ≤ k → k < j → f[k]? ≠ some marker

/-- What a resynchronization of a complete frame f leaves (41_framing.md R130 to R133): shifted to the least later MARKER,
or emptied where there is none. Bytes at offsets at or beyond the new count keep what f had there. -/
def ResyncLeaves (s t : State) (f : List Byte) (cause : DropCause) : Prop :=
  (∀ i, LeastMarker s.cfg.marker f i →
      t.phase = .accumulating ∧ t.count = s.cfg.frameSize - i ∧
        (∀ k, k < s.cfg.frameSize - i → t.buf[k]? = f[k + i]?) ∧
        (∀ k, s.cfg.frameSize - i ≤ k → t.buf[k]? = f[k]?) ∧ Gives s t .ok [.drop cause (.shift i)]) ∧
  ((∀ i, ¬ LeastMarker s.cfg.marker f i) →
      t.phase = .idle ∧ t.count = 0 ∧ t.buf = f ∧ Gives s t .ok [.drop cause .empty])

/-- The FRAME_SIZE bytes of a stream that start at offset p, fewer at its end. -/
def windowAt (c : Config) (stream : List Byte) (p : Nat) : List Byte := (stream.drop p).take c.frameSize

/-- The command words that no row of the opcode map takes, by the fields' values (30_encoding.md R82 to R84): OPC is 0 or
from 9 on; or V is not 0 in RXB, POLL, HRET, REG, RDSTAT; or IDX is not 0 in any but SETF; or A8 is not 0 in POLL, HRET,
SETF, SETC. -/
def IllegalWord (w : CmdWord) : Prop :=
  let opc := w.toNat / 4096
  let v := w.toNat / 2048 % 2
  let idx := w.toNat / 256 % 8
  let a8 := w.toNat % 256
  opc = 0 ∨ 9 ≤ opc ∨ (opc ∈ [1, 2, 3, 4, 8] ∧ v ≠ 0) ∨ (opc ≠ 6 ∧ idx ≠ 0) ∨ (opc ∈ [2, 3, 6, 7] ∧ a8 ≠ 0)

/-- The states that no rule lets an output tell apart (10_state.md R24, R25): equal but for buffer bytes at offsets at or
beyond count, and for start_ts while not Accumulating. -/
def SameVisible (s s' : State) : Prop :=
  s'.cfg = s.cfg ∧ s'.phase = s.phase ∧ s'.count = s.count ∧ (∀ k, k < s.count → s'.buf[k]? = s.buf[k]?) ∧
    (s.phase = .accumulating → s'.startTs = s.startTs) ∧ s'.handlers = s.handlers ∧ s'.txFlags = s.txFlags ∧
    s'.fault = s.fault ∧ s'.counters = s.counters ∧ s'.inputs = s.inputs ∧ s'.outputs = s.outputs

/-! ## Renaming handler identities (00_scope.md R15) -/

/-- An event with its handler identity renamed. -/
def renameEvent (ρ : HandlerId → HandlerId) : Event → Event
  | .tx f => .tx f
  | .deliver h f => .deliver (ρ h) f
  | .drop c r => .drop c r
  | .unregistered t => .unregistered t
  | .timeout => .timeout

/-- An input with its handler operand renamed. -/
def renameInput (ρ : HandlerId → HandlerId) : Input → Input
  | .reset => .reset
  | .command c => .command { c with handler := ρ c.handler }

/-- A state with every handler identity in it renamed. -/
def renameState (ρ : HandlerId → HandlerId) (s : State) : State :=
  { s with
    handlers := s.handlers.map (Option.map ρ)
    inputs := s.inputs.map (renameInput ρ)
    outputs := s.outputs.map fun o => ⟨o.response, o.events.map (renameEvent ρ)⟩ }

/-- The outcome of a step with every handler identity in it renamed. -/
def renameResult (ρ : HandlerId → HandlerId) : Result → Result
  | .next t => .next (renameState ρ t)
  | .fault r => .fault r
  | .refused r => .refused r

/-- The resynchronization loop as the spec writes it (41_framing.md R130): for k from 0 to n-1 ascending,
buf[k] <- buf[k+i]. -/
def shiftLoop (i : Nat) : Nat → List Byte → List Byte
  | 0, buf => buf
  | n + 1, buf =>
    let buf' := shiftLoop i n buf
    match buf'[n + i]? with
    | some b => buf'.set n b
    | none => buf'

end Sys2Proof.Safety
end

