-- ==== Sys2Proof/Certificates/Slice0/Obligations.lean ====
section
/-! DEFINITION. The statements for the provers. Each docstring names the rules of spec/ it formalises. "The model's own
choice" marks a clause that rests on a log entry. -/

open Sys2Proof Sys2Proof.Machine Sys2Proof.Safety

/-! ## Reset, invariants and the whole machine -/

/-- The reset values of 10_state.md R33 and 70_reset_and_hazards.md R260: the reset input puts every element that has a
reset value at it and gives nothing back; the state that a build starts in has the same values. buf and start_ts are
unspecified there and nothing is said of their values. That a reset is taken from the queue of inputs and leaves those behind
it waiting (t.inputs = rest), and that the parameters and the outputs already given stay, is the model's own choice
(entry 8). -/
def Obligations.ResetLeavesSpecValues : Prop :=
  (∀ (s : State) (rest : List Input), s.inputs = .reset :: rest →
    ∃ t, step s = .next t ∧ t.phase = .idle ∧ t.count = 0 ∧ t.buf.length = s.cfg.frameSize ∧
      t.handlers.length = s.cfg.typeCount ∧ (∀ k, k < s.cfg.typeCount → t.handlers[k]? = some none) ∧
      t.txFlags = 0x00 ∧ t.fault = none ∧ (∀ n, t.counters.get n = 0) ∧
      t.outputs = s.outputs ∧ t.inputs = rest ∧ t.cfg = s.cfg) ∧
  (∀ c : Config, (State.resetWith c).phase = .idle ∧ (State.resetWith c).count = 0 ∧
    (State.resetWith c).buf.length = c.frameSize ∧
    (State.resetWith c).handlers.length = c.typeCount ∧
    (∀ k, k < c.typeCount → (State.resetWith c).handlers[k]? = some none) ∧
    (State.resetWith c).txFlags = 0x00 ∧ (State.resetWith c).fault = none ∧
    (∀ n, (State.resetWith c).counters.get n = 0) ∧ (State.resetWith c).outputs = [] ∧ (State.resetWith c).cfg = c)

/-- The invariant holds at reset, for every legal value of the parameters (10_state.md R26 base case). -/
def Obligations.InvHoldsAtReset : Prop :=
  (∀ c : Config, c.Legal → Inv (State.resetWith c)) ∧ Inv State.reset

/-- Every step keeps the invariant: the shape of the state and I-1 to I-4 of 10_state.md R26. -/
def Obligations.EveryStepKeepsInv : Prop :=
  ∀ s t : State, Inv s → step s = .next t → Inv t

/-- From every state with the invariant a step answers a next state: no rule forms an offset outside the buffer or the
handler table (20_memory.md R51), and no command is left without a meaning. -/
def Obligations.NoStepStopsFromInv : Prop :=
  ∀ s : State, Inv s → ∃ t, step s = .next t

/-- R234: while fault is not 0 every command but RDSTAT answers ERR_FAULTED and changes nothing (so nothing is received,
sent or delivered); RDSTAT answers what it would answer without the fault, but that the status word's bits 3:2 show the fault code;
and a step changes a fault that is set only by taking a reset. -/
def Obligations.FaultIsStickyUntilReset : Prop :=
  (∀ (s : State) (i : Instr), s.fault ≠ none → (∀ sel, i ≠ .rdstat sel) →
    ∃ t, exec i s = .next t ∧ OnlyAnswers s t (.err .faulted)) ∧
  (∀ (s : State) (sel : Byte), s.fault ≠ none → sel ≠ 0 →
    ∃ t u r, exec (.rdstat sel) s = .next t ∧ exec (.rdstat sel) { s with fault := none } = .next u ∧
      OnlyAnswers s t r ∧ OnlyAnswers { s with fault := none } u r) ∧
  (∀ (s : State), s.fault ≠ none →
    ∃ t v, exec (.rdstat 0) s = .next t ∧ OnlyAnswers s t (.val v) ∧ v.extractLsb' 2 2 = faultCode s.fault ∧
      (s.fault = some .reentrant → v.extractLsb' 2 2 = 1) ∧ (s.fault = some .payloadShort → v.extractLsb' 2 2 = 2)) ∧
  (∀ s t : State, s.fault ≠ none → step s = .next t → t.fault ≠ s.fault → s.inputs.head? = some .reset)

/-- Each state element is written only by the commands whose rules say so (10_state.md R22 to R30): phase and count by
RXB, POLL and HRET, buf and start_ts by RXB, the handler table by REG, tx_flags by SETF and SETC, fault by RXB, POLL
and SEND; parameters and waiting inputs by none; counters only by RXB, POLL and SEND. -/
def Obligations.EachElementIsWrittenOnlyByItsCommands : Prop :=
  ∀ (i : Instr) (s t : State), exec i s = .next t →
    t.cfg = s.cfg ∧ t.inputs = s.inputs ∧
    ((t.phase ≠ s.phase ∨ t.count ≠ s.count) → i.mnemonic ∈ ["RXB", "POLL", "HRET"]) ∧
    ((t.buf ≠ s.buf ∨ t.startTs ≠ s.startTs) → i.mnemonic = "RXB") ∧
    (t.handlers ≠ s.handlers → i.mnemonic = "REG") ∧
    (t.txFlags ≠ s.txFlags → i.mnemonic ∈ ["SETF", "SETC"]) ∧
    (t.fault ≠ s.fault → i.mnemonic ∈ ["RXB", "POLL", "SEND"]) ∧
    (t.counters ≠ s.counters → i.mnemonic ∈ ["RXB", "POLL", "SEND"])

/-- R86: a command gives exactly one response. A refused command changed no state and emitted no event; a FAULT response
sets the fault and changes nothing else; a value is given by RDSTAT only, and changes nothing; and RXB and POLL answer OK
but for ERR_ILLEGAL, ERR_FAULTED and FAULT_REENTRANT. -/
def Obligations.EveryCommandGivesOneResponse : Prop :=
  ∀ (s t : State) (c : Command) (rest : List Input), s.inputs = .command c :: rest → step s = .next t →
    ∃ o : Output, t.outputs = s.outputs ++ [o] ∧
      (∀ e, o.response = .err e →
        o.events = [] ∧ t = { s with inputs := rest, outputs := s.outputs ++ [o] }) ∧
      (∀ f, o.response = .fault f →
        o.events = [] ∧ t = { s with inputs := rest, fault := some f, outputs := s.outputs ++ [o] }) ∧
      (∀ v, o.response = .val v →
        c.word.toNat / 4096 = 8 ∧ t = { s with inputs := rest, outputs := s.outputs ++ [o] }) ∧
      ((c.word.toNat / 4096 = 1 ∨ c.word.toNat / 4096 = 2) →
        o.response ∈ [.ok, .err .illegal, .err .faulted, .fault .reentrant])

/-- 44_status.md R200 to R204: with counters, every command's step adds to each counter the number of its events, mod 2^32; without, the
counters stay. No command clears one. -/
def Obligations.CountersCountEvents : Prop :=
  ∀ (s t : State) (c : Command) (rest : List Input), s.inputs = .command c :: rest → step s = .next t →
    (s.cfg.hasCounters = false → t.counters = s.counters) ∧
    (s.cfg.hasCounters = true → ∃ o : Output, t.outputs = s.outputs ++ [o] ∧
      t.counters.resync = s.counters.resync +
        BitVec.ofNat 32 (o.events.countP fun e => match e with | .drop _ _ => true | _ => false) ∧
      t.counters.checksum = s.counters.checksum +
        BitVec.ofNat 32 (o.events.countP fun e => match e with | .drop .checksum _ => true | _ => false) ∧
      t.counters.unkType = s.counters.unkType +
        BitVec.ofNat 32 (o.events.countP fun e => match e with | .drop .unknownType _ => true | _ => false) ∧
      t.counters.timeout = s.counters.timeout +
        BitVec.ofNat 32 (o.events.countP fun e => match e with | .timeout => true | _ => false) ∧
      t.counters.deliver = s.counters.deliver +
        BitVec.ofNat 32 (o.events.countP fun e => match e with | .deliver _ _ => true | _ => false) ∧
      t.counters.unreg = s.counters.unreg +
        BitVec.ofNat 32 (o.events.countP fun e => match e with | .unregistered _ => true | _ => false) ∧
      t.counters.tx = s.counters.tx +
        BitVec.ofNat 32 (o.events.countP fun e => match e with | .tx _ => true | _ => false))

/-- R15: the framer never inspects a handler identity: renaming every identity, in the table, in the waiting commands and in
the outputs, by any function, commutes with a step. -/
def Obligations.HandlerIdentitiesAreOpaque : Prop :=
  ∀ (ρ : HandlerId → HandlerId) (s : State), step (renameState ρ s) = renameResult ρ (step s)

/-- 10_state.md R24, R25: no output depends on a buffer byte at an offset at or beyond count, nor on start_ts while not Accumulating: two states
with the invariant that differ in these only step alike, giving the same output and again differing in these only. -/
def Obligations.StaleStateIsNeverObserved : Prop :=
  ∀ s s' t : State, Inv s → Inv s' → SameVisible s s' → step s = .next t →
    ∃ t', step s' = .next t' ∧ SameVisible t t'

/-- R237: a handler invocation cannot nest. A step that gives back a Deliver event is that of an RXB, is taken outside
Dispatching and ends in Dispatching; an RXB in Dispatching faults and gives back no event; so at most one handler runs at a
time. A REG while it runs keeps the phase, the count and the held frame. -/
def Obligations.AtMostOneHandlerRuns : Prop :=
  (∀ (s t : State) (o : Output) (h : HandlerId) (f : List Byte),
    step s = .next t → t.outputs = s.outputs ++ [o] → Event.deliver h f ∈ o.events →
      (∃ c rest b now, s.inputs = .command c :: rest ∧ decode c = .ok (.rxb b now)) ∧
      s.phase ≠ .dispatching ∧ t.phase = .dispatching) ∧
  (∀ (s : State) (b : Byte) (now : Nat), s.fault = none → s.phase = .dispatching →
    ∃ t, exec (.rxb b now) s = .next t ∧ t.fault = some .reentrant ∧ Gives s t (.fault .reentrant) []) ∧
  (∀ (s t : State) (ty : Byte) (h : HandlerId), s.phase = .dispatching → exec (.reg ty h) s = .next t →
    t.phase = .dispatching ∧ t.count = s.count ∧ t.buf = s.buf)

/-! ## The command port: decoding and the step -/

/-- A step takes the oldest waiting command, and where its word decodes to an instruction it is that instruction executed
in the state without that command; with no input waiting it changes nothing (60_exceptions.md R250; the model's own choice
of a queue and of an idle step: entries 5 and 6). -/
def Obligations.StepRunsTheDecodedInstruction : Prop :=
  (∀ (s : State) (c : Command) (rest : List Input) (i : Instr),
    s.inputs = .command c :: rest → decode c = .ok i → step s = exec i { s with inputs := rest }) ∧
  (∀ s : State, s.inputs = [] → step s = .next s)

/-- R83, R84: a command word with a reserved opcode or a nonzero fixed-zero field is taken, answered ERR_ILLEGAL, and
changes nothing else, whatever the state (a faulted or a dispatching one too: the check precedes every other). -/
def Obligations.IllegalWordsChangeNothing : Prop :=
  ∀ (s : State) (c : Command) (rest : List Input), s.inputs = .command c :: rest → IllegalWord c.word →
    ∃ t, step s = .next t ∧ OnlyAnswers { s with inputs := rest } t (.err .illegal)

/-- R85: every command word either matches exactly one row of the opcode table, and decodes to that row's instruction, or is
illegal, matches none and is refused; what is decoded is decided by the word. -/
def Obligations.EveryWordMatchesOneRowOrIsIllegal : Prop :=
  ∀ c : Command,
    (∀ i, decode c = .ok i →
      ¬ IllegalWord c.word ∧
        (opcodeTable.filter fun r => decide (r.Matches c.word)).map OpcodeRow.mnemonic = [i.mnemonic]) ∧
    (∀ e, decode c = .error e →
      IllegalWord c.word ∧ (opcodeTable.filter fun r => decide (r.Matches c.word)) = [])

/-- R81: what each row of the opcode map decodes to: RXB and POLL take NOW, REG takes H, SEND takes LEN and, with V = 1,
PAYLOAD; every other sideband operand is ignored. -/
def Obligations.EachRowTakesItsOperandsOnly : Prop :=
  ∀ c : Command,
    (∀ b : Byte, c.word.toNat = 0x1000 + b.toNat → decode c = .ok (.rxb b c.now)) ∧
    (c.word.toNat = 0x2000 → decode c = .ok (.poll c.now)) ∧
    (c.word.toNat = 0x3000 → decode c = .ok .hret) ∧
    (∀ t : Byte, c.word.toNat = 0x4000 + t.toNat → decode c = .ok (.reg t c.handler)) ∧
    (∀ t : Byte, c.word.toNat = 0x5800 + t.toNat → decode c = .ok (.send t (some c.payload) c.len)) ∧
    (∀ t : Byte, c.word.toNat = 0x5000 + t.toNat → decode c = .ok (.send t none c.len)) ∧
    (∀ (i : BitVec 3) (v : Bool), c.word.toNat = 0x6000 + i.toNat * 0x100 + v.toNat * 0x800 →
      decode c = .ok (.setf i v)) ∧
    (∀ v : Bool, c.word.toNat = 0x7000 + v.toNat * 0x800 → decode c = .ok (.setc v)) ∧
    (∀ s : Byte, c.word.toNat = 0x8000 + s.toNat → decode c = .ok (.rdstat s))

/-- Decoding an encoded instruction gives it back, for every instruction and every value of every operand
(30_encoding.md R80 to R82, R89). -/
def Obligations.DecodeOfEncodeIsTheInstruction : Prop :=
  ∀ i : Instr, decode (encode i) = .ok i

/-- Encoding a decoded instruction gives the command word back: no bit of a legal word is dropped. -/
def Obligations.EncodeOfDecodeIsTheWord : Prop :=
  ∀ (c : Command) (i : Instr), decode c = .ok i → (encode i).word = c.word

/-- A few words written out from R89 decode to the commands they stand for (a sanity statement). -/
def Obligations.WrittenOutWordsDecode : Prop :=
  decodeTableWord 16 0x10AA = some (.rxb 0xAA 0) ∧ decodeTableWord 16 0x2000 = some (.poll 0) ∧
  decodeTableWord 16 0x3000 = some .hret ∧ decodeTableWord 16 0x4003 = some (.reg 3 ⟨0⟩) ∧
  decodeTableWord 16 0x5801 = some (.send 1 (some []) 0) ∧ decodeTableWord 16 0x5004 = some (.send 4 none 0) ∧
  decodeTableWord 16 0x6A00 = some (.setf 2 true) ∧ decodeTableWord 16 0x7800 = some (.setc true) ∧
  decodeTableWord 16 0x8007 = some (.rdstat 7) ∧ decodeTableWord 16 0x18AA = none ∧
  decodeTableWord 16 0x9000 = none

/-- 30_encoding.md R89's table of command words, and its assembly errors, for the forms of one command: a line whose numbers fit stands
for the command with the word of the table, and one with a number that does not fit its field stands for none; and R91: each
alias stands for what its one command stands for. -/
def Obligations.AssembledLinesHaveTheTablesWords : Prop :=
  (∀ b now : Nat, (b < 256 → ∃ i, assemble (.rxb b now) = some (.command i) ∧ (encode i).word.toNat = 0x1000 + b ∧
      (encode i).now = now) ∧ (256 ≤ b → assemble (.rxb b now) = none)) ∧
  (∀ now : Nat, ∃ i, assemble (.poll now) = some (.command i) ∧ (encode i).word.toNat = 0x2000 ∧
      (encode i).now = now) ∧
  (∃ i, assemble .hret = some (.command i) ∧ (encode i).word.toNat = 0x3000) ∧
  (∀ (t : Nat) (h : HandlerId), (t < 256 → ∃ i, assemble (.reg t h) = some (.command i) ∧
      (encode i).word.toNat = 0x4000 + t ∧ (encode i).handler = h) ∧ (256 ≤ t → assemble (.reg t h) = none)) ∧
  (∀ (t len : Nat) (p : List Byte), (t < 256 →
      (∃ i, assemble (.send t (some (p.map BitVec.toNat)) len) = some (.command i) ∧
        (encode i).word.toNat = 0x5800 + t ∧ (encode i).payload = p ∧ (encode i).len = len) ∧
      (∃ i, assemble (.send t none len) = some (.command i) ∧ (encode i).word.toNat = 0x5000 + t ∧
        (encode i).len = len)) ∧
      (256 ≤ t → ∀ q, assemble (.send t q len) = none)) ∧
  (∀ k v : Nat, (k < 8 ∧ v < 2 → ∃ i, assemble (.setf k v) = some (.command i) ∧
      (encode i).word.toNat = 0x6000 + k * 0x100 + v * 0x800) ∧ (8 ≤ k ∨ 2 ≤ v → assemble (.setf k v) = none)) ∧
  (∀ v : Nat, (v < 2 → ∃ i, assemble (.setc v) = some (.command i) ∧ (encode i).word.toNat = 0x7000 + v * 0x800) ∧
      (2 ≤ v → assemble (.setc v) = none)) ∧
  (∀ s : Nat, (s < 256 → ∃ i, assemble (.rdstat s) = some (.command i) ∧ (encode i).word.toNat = 0x8000 + s) ∧
      (256 ≤ s → assemble (.rdstat s) = none)) ∧
  (∀ t : Nat, assemble (.sendz t) = assemble (.send t none 0)) ∧
  (∀ i : Nat, assemble (.clrf i) = assemble (.setf i 0)) ∧
  assemble .clrc = assemble (.setc 0) ∧ assemble .status = assemble (.rdstat 0)

/-! ## RXB -/

/-- R122: an RXB that finds Idle records NOW on W bits as the start timestamp and, where the byte is the marker, leaves the
framer Accumulating; no other command, nor an RXB that finds another phase, writes the start timestamp; and a
resynchronization shift keeps the framer in Accumulating and the start timestamp as it was. -/
def Obligations.StartTimestampIsWrittenOnlyFromIdle : Prop :=
  (∀ (s : State) (b : Byte) (now : Nat), Inv s → s.fault = none → s.phase = .idle →
    ∃ t, exec (.rxb b now) s = .next t ∧ t.startTs = now % 2 ^ s.cfg.clockWidth ∧
      (b = s.cfg.marker → t.phase = .accumulating)) ∧
  (∀ (s t : State) (i : Instr), exec i s = .next t → t.startTs ≠ s.startTs →
    (∃ b now, i = .rxb b now) ∧ s.phase = .idle) ∧
  (∀ (s t : State) (i : Instr) (o : Output) (cause : DropCause) (k : Nat), Inv s → exec i s = .next t →
    t.outputs = s.outputs ++ [o] → Event.drop cause (.shift k) ∈ o.events →
      s.phase = .accumulating ∧ t.phase = .accumulating ∧ t.startTs = s.startTs)

/-- RXB of MARKER in Idle (41_framing.md R120 to R124): the byte is stored at offset 0, count is 1, the phase Accumulating,
the timestamp recorded; nothing else changes and no event is given. -/
def Obligations.RxbOfMarkerInIdleStartsAFrame : Prop :=
  ∀ (s : State) (now : Nat), Inv s → s.fault = none → s.phase = .idle →
    ∃ t, exec (.rxb s.cfg.marker now) s = .next t ∧ t.phase = .accumulating ∧ t.count = 1 ∧
      t.startTs = now % 2 ^ s.cfg.clockWidth ∧ t.buf[s.count]? = some s.cfg.marker ∧
      (∀ k, k ≠ s.count → t.buf[k]? = s.buf[k]?) ∧ KeepsRest s t ∧ Counts s t [] ∧ Gives s t .ok []

/-- RXB of another byte in Idle drops it (41_framing.md R134, R130, R133). count is 0 and the phase Idle again, CNT_RESYNC
grows, the event is Drop(FRAMING, Empty); only the byte at offset 0, now stale, and the timestamp of the frame that never
was are written. -/
def Obligations.RxbOfAnotherByteInIdleIsDropped : Prop :=
  ∀ (s : State) (b : Byte) (now : Nat), Inv s → s.fault = none → s.phase = .idle → b ≠ s.cfg.marker →
    ∃ t, exec (.rxb b now) s = .next t ∧ t.phase = .idle ∧ t.count = 0 ∧
      t.startTs = now % 2 ^ s.cfg.clockWidth ∧
      (∀ k, k ≠ s.count → t.buf[k]? = s.buf[k]?) ∧ KeepsRest s t ∧ Counts s t [.resync] ∧
      Gives s t .ok [.drop .framing .empty]

/-- R134: a Drop event is given only by RXB. With cause FRAMING it is given only from Idle, its result is Empty and the
framer is Idle again; with another cause only by the byte that completes a frame, and a shift is then to an offset from 1 to
FRAME_SIZE - 1. A byte that is not MARKER, received in Idle, is discarded with CNT_RESYNC + 1 and nothing else observable. -/
def Obligations.DropsHappenOnlyWhereTheRulesSay : Prop :=
  (∀ (s t : State) (i : Instr) (o : Output) (cause : DropCause) (r : DropResult), Inv s → exec i s = .next t →
    t.outputs = s.outputs ++ [o] → Event.drop cause r ∈ o.events →
      (∃ b now, i = .rxb b now) ∧
      (cause = .framing → s.phase = .idle ∧ r = .empty ∧ t.phase = .idle ∧ t.count = 0) ∧
      (cause ≠ .framing → s.phase = .accumulating ∧ s.count + 1 = s.cfg.frameSize ∧
        ∀ k, r = .shift k → 1 ≤ k ∧ k ≤ s.cfg.frameSize - 1)) ∧
  (∀ (s : State) (b : Byte) (now : Nat), Inv s → s.fault = none → s.phase = .idle → b ≠ s.cfg.marker →
    ∃ t, exec (.rxb b now) s = .next t ∧ SameVisible { s with counters := t.counters, outputs := t.outputs } t ∧
      Counts s t [.resync] ∧ Gives s t .ok [.drop .framing .empty])

/-- RXB inside a frame (41_framing.md R121, R123, R124): the byte goes to offset count, count grows by one; every other
byte, the phase and the timestamp stay, whatever the byte is (a MARKER byte too) and whatever NOW is. -/
def Obligations.RxbInsideAFrameAppends : Prop :=
  ∀ (s : State) (b : Byte) (now : Nat), Inv s → s.fault = none → s.phase = .accumulating →
    s.count + 1 < s.cfg.frameSize →
    ∃ t, exec (.rxb b now) s = .next t ∧ t.phase = .accumulating ∧ t.count = s.count + 1 ∧ t.startTs = s.startTs ∧
      t.buf[s.count]? = some b ∧ (∀ k, k ≠ s.count → t.buf[k]? = s.buf[k]?) ∧
      KeepsRest s t ∧ Counts s t [] ∧ Gives s t .ok []

/-- R125, with R130 to R133: the byte that completes a frame whose checksum fails. The frame is not delivered: CNT_CHECKSUM
and CNT_RESYNC grow and the framer resynchronizes with cause CHECKSUM, whatever the type is. -/
def Obligations.RxbOfABadChecksumResynchronizes : Prop :=
  ∀ (s : State) (b : Byte) (now : Nat), Inv s → s.fault = none → s.phase = .accumulating →
    s.count + 1 = s.cfg.frameSize → verify s.cfg.payloadCap (completedBy s b) = false →
    ∃ t, exec (.rxb b now) s = .next t ∧ ResyncLeaves s t (completedBy s b) .checksum ∧ t.startTs = s.startTs ∧
      KeepsRest s t ∧ Counts s t [.checksum, .resync]

/-- R126, with R130 to R133: the byte that completes a frame with a valid checksum and a type out of range. CNT_UNKTYPE and
CNT_RESYNC grow and the framer resynchronizes with cause UNKNOWN_TYPE. -/
def Obligations.RxbOfAnUnknownTypeResynchronizes : Prop :=
  ∀ (s : State) (b ty : Byte) (now : Nat), Inv s → s.fault = none → s.phase = .accumulating →
    s.count + 1 = s.cfg.frameSize → verify s.cfg.payloadCap (completedBy s b) = true →
    (completedBy s b)[1]? = some ty → s.cfg.typeCount ≤ ty.toNat →
    ∃ t, exec (.rxb b now) s = .next t ∧ ResyncLeaves s t (completedBy s b) .unknownType ∧ t.startTs = s.startTs ∧
      KeepsRest s t ∧ Counts s t [.unkType, .resync]

/-- The byte that completes a valid frame of a registered type (42_dispatch.md R165). The handler is invoked with a copy of the whole frame,
the phase is Dispatching, count is FRAME_SIZE and the frame stays in buf. -/
def Obligations.RxbOfAValidFrameDelivers : Prop :=
  ∀ (s : State) (b ty : Byte) (h : HandlerId) (now : Nat), Inv s → s.fault = none → s.phase = .accumulating →
    s.count + 1 = s.cfg.frameSize → verify s.cfg.payloadCap (completedBy s b) = true →
    (completedBy s b)[1]? = some ty → ty.toNat < s.cfg.typeCount → s.handlers[ty.toNat]? = some (some h) →
    ∃ t, exec (.rxb b now) s = .next t ∧ t.phase = .dispatching ∧ t.count = s.cfg.frameSize ∧
      t.buf = completedBy s b ∧ t.startTs = s.startTs ∧ KeepsRest s t ∧ Counts s t [.deliver] ∧
      Gives s t .ok [.deliver h (completedBy s b)]

/-- R167: the byte that completes a valid frame of a type with no handler. The frame is dropped whole, with no delivery and
no resynchronization (whatever MARKER bytes it holds). -/
def Obligations.RxbOfAnUnregisteredTypeDropsTheFrame : Prop :=
  ∀ (s : State) (b ty : Byte) (now : Nat), Inv s → s.fault = none → s.phase = .accumulating →
    s.count + 1 = s.cfg.frameSize → verify s.cfg.payloadCap (completedBy s b) = true →
    (completedBy s b)[1]? = some ty → ty.toNat < s.cfg.typeCount → s.handlers[ty.toNat]? = some none →
    ∃ t, exec (.rxb b now) s = .next t ∧ t.phase = .idle ∧ t.count = 0 ∧ t.buf = completedBy s b ∧
      t.startTs = s.startTs ∧ KeepsRest s t ∧ Counts s t [.unreg] ∧ Gives s t .ok [.unregistered ty]

/-- R220: no receive error is fatal or surfaced. Unfaulted and outside Dispatching, RXB and POLL complete and answer OK, and
the framer is then Idle or Accumulating unless a handler was invoked. -/
def Obligations.ReceiveErrorsAreRecoveredSilently : Prop :=
  ∀ (s : State) (i : Instr), Inv s → s.fault = none → s.phase ≠ .dispatching →
    ((∃ b now, i = .rxb b now) ∨ (∃ now, i = .poll now)) →
    ∃ t o, exec i s = .next t ∧ t.outputs = s.outputs ++ [o] ∧ o.response = .ok ∧ t.fault = none ∧
      (t.phase = .idle ∨ t.phase = .accumulating ∨ ∃ h f, o.events = [.deliver h f])

/-- R139: the timeout is evaluated only by POLL. Outside Idle the whole outcome of an RXB is the same for every clock value
and, but for start_ts itself, which it keeps, for every start timestamp; and a Timeout event is given by POLL only. -/
def Obligations.RxbNeverTimesOut : Prop :=
  (∀ (s t : State) (b : Byte) (now now' ts : Nat), s.phase ≠ .idle → exec (.rxb b now) s = .next t →
    t.startTs = s.startTs ∧ exec (.rxb b now') { s with startTs := ts } = .next { t with startTs := ts }) ∧
  (∀ (s t : State) (i : Instr) (o : Output), exec i s = .next t → t.outputs = s.outputs ++ [o] →
    Event.timeout ∈ o.events → ∃ now, i = .poll now)

/-- The resynchronization loop (41_framing.md R130, R132: for k ascending, buf[k] <- buf[k+i]) and the model's shift leave the same buffer,
whenever the moved bytes are in the buffer. -/
def Obligations.ShiftMovesBytesAsTheLoopDoes : Prop :=
  ∀ (s : State) (i : Nat), i ≤ s.count → s.count ≤ s.buf.length →
    (s.shiftBuf i).buf = shiftLoop i (s.count - i) s.buf ∧ (s.shiftBuf i).count = s.count - i ∧
      (∀ k, k < s.count - i → (s.shiftBuf i).buf[k]? = s.buf[k + i]?) ∧
      (∀ k, s.count - i ≤ k → (s.shiftBuf i).buf[k]? = s.buf[k]?)

/-! ## POLL -/

/-- POLL on a stalled frame (41_framing.md R135): Accumulating, and the W-bit difference of NOW and start_ts above
READ_TIMEOUT. The frame is discarded, CNT_TIMEOUT grows, buf and start_ts stay. -/
def Obligations.PollDiscardsAStalledFrame : Prop :=
  ∀ (s : State) (now : Nat), s.fault = none → s.phase = .accumulating → s.startTs < 2 ^ s.cfg.clockWidth →
    s.cfg.readTimeout < (now + (2 ^ s.cfg.clockWidth - s.startTs)) % 2 ^ s.cfg.clockWidth →
    ∃ t, exec (.poll now) s = .next t ∧ t.phase = .idle ∧ t.count = 0 ∧ t.buf = s.buf ∧ t.startTs = s.startTs ∧
      KeepsRest s t ∧ Counts s t [.timeout] ∧ Gives s t .ok [.timeout]

/-- R137: a POLL in Idle, or in Accumulating with no more than READ_TIMEOUT elapsed (exactly READ_TIMEOUT included), changes
no state and gives no event. -/
def Obligations.PollOtherwiseChangesNothing : Prop :=
  ∀ (s : State) (now : Nat), s.fault = none → s.startTs < 2 ^ s.cfg.clockWidth →
    (s.phase = .idle ∨ (s.phase = .accumulating ∧
      (now + (2 ^ s.cfg.clockWidth - s.startTs)) % 2 ^ s.cfg.clockWidth ≤ s.cfg.readTimeout)) →
    ∃ t, exec (.poll now) s = .next t ∧ OnlyAnswers s t .ok

/-- Elapsed time is exact across a wrap of the clock (41_framing.md R136): d milliseconds after start, with d below 2^W, the
elapsed time is d, for every start. -/
def Obligations.ElapsedTimeIsExactAcrossTheWrap : Prop :=
  ∀ (c : Config) (start d : Nat), d < 2 ^ c.clockWidth →
    elapsed c ((start + d) % 2 ^ c.clockWidth) (start % 2 ^ c.clockWidth) = d

/-! ## Faults raised -/

/-- R233: RXB, POLL and SEND while a handler runs raise REENTRANT, with every operand (a short payload too): the fault is
set, FAULT is answered, nothing else changes (R232). -/
def Obligations.ReentrantCommandsRaiseTheFault : Prop :=
  ∀ (s : State) (i : Instr), s.fault = none → s.phase = .dispatching →
    ((∃ b now, i = .rxb b now) ∨ (∃ now, i = .poll now) ∨ (∃ ty p len, i = .send ty p len)) →
    exec i s = .next { s with fault := some .reentrant, outputs := s.outputs ++ [⟨.fault .reentrant, []⟩] }

/-- A SEND whose payload has fewer bytes than min(len, P) raises PAYLOAD_SHORT and sends nothing (43_sender.md R180,
60_exceptions.md R232). -/
def Obligations.ShortPayloadRaisesTheFault : Prop :=
  ∀ (s : State) (ty : Byte) (p : List Byte) (len : Nat), s.fault = none → s.phase ≠ .dispatching →
    p.length < len → p.length < s.cfg.payloadCap →
    exec (.send ty (some p) len) s =
      .next { s with fault := some .payloadShort, outputs := s.outputs ++ [⟨.fault .payloadShort, []⟩] }

/-! ## HRET and REG -/

/-- R236, and 42_dispatch.md R166: HRET in Dispatching restores Idle and count 0 and nothing else; elsewhere it is refused
and changes nothing. -/
def Obligations.HretRestoresIdleAndNothingElse : Prop :=
  (∀ s : State, s.fault = none → s.phase = .dispatching →
    exec .hret s = .next { s with phase := .idle, count := 0, outputs := s.outputs ++ [⟨.ok, []⟩] }) ∧
  (∀ s : State, s.fault = none → s.phase ≠ .dispatching →
    ∃ t, exec .hret s = .next t ∧ OnlyAnswers s t (.err .notDispatching))

/-- REG (42_dispatch.md R160, R162), in every phase: a type in range gets the handler, the other entries and everything else
stay; a type out of range is refused and nothing changes. -/
def Obligations.RegWritesOneHandlerEntry : Prop :=
  (∀ (s : State) (ty : Byte) (h : HandlerId), s.fault = none → s.handlers.length = s.cfg.typeCount →
    ty.toNat < s.cfg.typeCount →
    ∃ t, exec (.reg ty h) s = .next t ∧ t.handlers[ty.toNat]? = some (some h) ∧
      (∀ k, k ≠ ty.toNat → t.handlers[k]? = s.handlers[k]?) ∧
      t = { s with handlers := t.handlers, outputs := s.outputs ++ [⟨.ok, []⟩] }) ∧
  (∀ (s : State) (ty : Byte) (h : HandlerId), s.fault = none → s.cfg.typeCount ≤ ty.toNat →
    ∃ t, exec (.reg ty h) s = .next t ∧ OnlyAnswers s t (.err .typeRange))

/-! ## SEND, SETF, SETC -/

/-- R181, R184 (and 43_sender.md R180, R182, R183): SEND in Idle or Accumulating, with enough payload bytes, gives exactly one TX event and no other, of a
frame of FRAME_SIZE bytes: MARKER, the type unchecked, tx_flags, min(len, P) caller bytes and then zeros (all zeros when the
payload is absent), and the two checksum bytes of what precedes them. CNT_TX grows; the receive state, tx_flags and all else
stay. -/
def Obligations.SendTransmitsOneFrame : Prop :=
  ∀ (s : State) (ty : Byte) (payload : Option (List Byte)) (len : Nat), s.fault = none → s.phase ≠ .dispatching →
    (∀ p, payload = some p → min len s.cfg.payloadCap ≤ p.length) →
    ∃ t f, exec (.send ty payload len) s = .next t ∧ f.length = s.cfg.frameSize ∧
      f[0]? = some s.cfg.marker ∧ f[1]? = some ty ∧ f[2]? = some s.txFlags ∧
      (∀ j, j < s.cfg.payloadCap → j < len → ∀ p, payload = some p → f[3 + j]? = p[j]?) ∧
      (∀ j, j < s.cfg.payloadCap → (len ≤ j ∨ payload = none) → f[3 + j]? = some 0x00) ∧
      f[s.cfg.payloadCap + 3]? = some (BitVec.ofNat 8 (fletcher (f.take (s.cfg.payloadCap + 3))).1) ∧
      f[s.cfg.payloadCap + 4]? = some (BitVec.ofNat 8 (fletcher (f.take (s.cfg.payloadCap + 3))).2) ∧
      t = { s with counters := t.counters, outputs := s.outputs ++ [⟨.ok, [.tx f]⟩] } ∧ Counts s t [.tx]

/-- R182: every frame that is handed to the transport has MARKER first and FRAME_SIZE bytes, and passes the
receiver's checksum test; its flags byte is tx_flags. -/
def Obligations.EverySentFramePassesTheReceiversChecks : Prop :=
  ∀ (s t : State) (i : Instr) (o : Output) (f : List Byte), exec i s = .next t →
    t.outputs = s.outputs ++ [o] → Event.tx f ∈ o.events →
      (∃ ty payload len, i = .send ty payload len) ∧ f.length = s.cfg.frameSize ∧ f[0]? = some s.cfg.marker ∧
      verify s.cfg.payloadCap f = true ∧ f[2]? = some s.txFlags

/-- R79: both checksum bytes of a frame built by SEND are at most 254, and a received frame with 0xFF in either place never
passes verification. -/
def Obligations.ChecksumByteFFNeverPasses : Prop :=
  (∀ (c : Config) (flags ty : Byte) (payload : Option (List Byte)) (len : Nat) (b : Byte),
    payloadTooShort c payload len = false →
    (buildFrame c flags ty payload len)[c.payloadCap + 3]? = some b ∨
      (buildFrame c flags ty payload len)[c.payloadCap + 4]? = some b → b.toNat ≤ 254) ∧
  (∀ (n : Nat) (f : List Byte), (f[n + 3]? = some 0xFF ∨ f[n + 4]? = some 0xFF) → verify n f = false)

/-- SETF (43_sender.md R185), in every phase: an index up to 3 writes that bit of tx_flags to v and keeps the other seven
and everything else; an index above 3 is refused and nothing changes. -/
def Obligations.SetfWritesOneUserFlag : Prop :=
  (∀ (s : State) (i : BitVec 3) (v : Bool), s.fault = none → i.toNat ≤ 3 →
    ∃ t, exec (.setf i v) s = .next t ∧
      (∀ k, k < 8 → t.txFlags.getLsbD k = if k = i.toNat then v else s.txFlags.getLsbD k) ∧
      t = { s with txFlags := t.txFlags, outputs := s.outputs ++ [⟨.ok, []⟩] }) ∧
  (∀ (s : State) (i : BitVec 3) (v : Bool), s.fault = none → 3 < i.toNat →
    ∃ t, exec (.setf i v) s = .next t ∧ OnlyAnswers s t (.err .flagIndex))

/-- SETC (43_sender.md R186), in every phase: bit 7 of tx_flags is v, the other seven and everything else stay. -/
def Obligations.SetcWritesTheCriticalBit : Prop :=
  ∀ (s : State) (v : Bool), s.fault = none →
    ∃ t, exec (.setc v) s = .next t ∧
      (∀ k, k < 8 → t.txFlags.getLsbD k = if k = 7 then v else s.txFlags.getLsbD k) ∧
      t = { s with txFlags := t.txFlags, outputs := s.outputs ++ [⟨.ok, []⟩] }

/-! ## RDSTAT -/

/-- R205: RDSTAT 0, in every phase, faulted or not, with or without counters, answers the status word: the phase code in bits
1:0, the fault code in 3:2, zero in 7:4, count in 23:8, tx_flags in 31:24. Nothing changes. -/
def Obligations.StatusWordHasTheSpecsLayout : Prop :=
  ∀ s : State, s.count < 2 ^ 16 →
    ∃ t v, exec (.rdstat 0) s = .next t ∧ OnlyAnswers s t (.val v) ∧
      v.toNat =
        (match s.phase with | .idle => 0 | .accumulating => 1 | .dispatching => 2) +
        (match s.fault with | none => 0 | some .reentrant => 1 | some .payloadShort => 2) * 2 ^ 2 +
        s.count * 2 ^ 8 + s.txFlags.toNat * 2 ^ 24

/-- RDSTAT of a counter (44_status.md R206, 10_state.md R30): selects 1 to 7 answer RESYNC, CHECKSUM, TIMEOUT, DELIVER,
UNKTYPE, UNREG, TX in this order with counters, and ERR_NO_COUNTERS without; a select above 7 answers ERR_SELECT in both;
nothing changes, in any phase, faulted or not. -/
def Obligations.RdstatReadsTheSelectedCounter : Prop :=
  ∀ s : State,
    (s.cfg.hasCounters = true → ∀ p ∈ ([(1, s.counters.resync), (2, s.counters.checksum), (3, s.counters.timeout),
        (4, s.counters.deliver), (5, s.counters.unkType), (6, s.counters.unreg), (7, s.counters.tx)] :
        List (Byte × Word32)),
      ∃ t, exec (.rdstat p.1) s = .next t ∧ OnlyAnswers s t (.val p.2)) ∧
    (s.cfg.hasCounters = false → ∀ sel : Byte, 1 ≤ sel.toNat → sel.toNat ≤ 7 →
      ∃ t, exec (.rdstat sel) s = .next t ∧ OnlyAnswers s t (.err .noCounters)) ∧
    (∀ sel : Byte, 7 < sel.toNat → ∃ t, exec (.rdstat sel) s = .next t ∧ OnlyAnswers s t (.err .select))

/-- The response codes of 30_encoding.md R87: each response has the code of the table
(a sanity statement). -/
def Obligations.ResponseCodesAreTheTables : Prop :=
  Response.ok.code = 0x00 ∧ (∀ v, (Response.val v).code = 0x01) ∧ (Response.err .illegal).code = 0x10 ∧
  (Response.err .typeRange).code = 0x11 ∧ (Response.err .flagIndex).code = 0x12 ∧
  (Response.err .notDispatching).code = 0x13 ∧ (Response.err .noCounters).code = 0x14 ∧
  (Response.err .select).code = 0x15 ∧ (Response.err .faulted).code = 0x16 ∧
  (Response.fault .reentrant).code = 0x21 ∧ (Response.fault .payloadShort).code = 0x22

/-! ## The checksum -/

/-- The closed form of both sums (40_checksum.md R103): sum1 is the sum of the bytes mod 255, sum2 the sum of the bytes
weighted n, n-1, ..., 1 mod 255. -/
def Obligations.FletcherHasTheClosedForm : Prop :=
  ∀ s : List Byte,
    (fletcher s).1 = (s.map BitVec.toNat).sum % 255 ∧
    (fletcher s).2 = (s.mapIdx fun k b => (s.length - k) * b.toNat).sum % 255

/-- 0x00 and 0xFF are interchangeable at any place (40_checksum.md R103, R106; 90_conflicts.md C4): the checksum does not
tell them apart. -/
def Obligations.FletcherCannotTellZeroFromFF : Prop :=
  ∀ (s : List Byte) (k : Nat), s[k]? = some 0x00 → fletcher (s.set k 0xFF) = fletcher s

/-- Swapping two bytes at j < k leaves sum1 and changes sum2 by (k - j) * (s[k] - s[j]) mod 255 (40_checksum.md R103). -/
def Obligations.FletcherSeesASwap : Prop :=
  ∀ (s : List Byte) (j k : Nat) (x y : Byte), j < k → s[j]? = some x → s[k]? = some y →
    (fletcher ((s.set j y).set k x)).1 = (fletcher s).1 ∧
    ((fletcher ((s.set j y).set k x)).2 : Int) % 255 =
      (((fletcher s).2 : Int) + ((k : Int) - j) * ((y.toNat : Int) - x.toNat)) % 255

/-- R104: a frame of P + 5 bytes passes verification if and only if its last two bytes are the sums of the P + 3 bytes
before them, sum1 first. -/
def Obligations.VerifyComparesBothBytes : Prop :=
  ∀ (covered : List Byte) (x y : Byte), 3 ≤ covered.length →
    (verify (covered.length - 3) (covered ++ [x, y]) = true ↔ fletcher covered = (x.toNat, y.toNat))

/-! ## Runs of commands -/

/-- The round trip (95_test_vectors.md 1.1; 43_sender.md R182): a receiver that is Idle and unfaulted and has a handler h
for the type takes the bytes of a frame that a sender with the same parameters built, one RXB each and none of them
timed; exactly the last one delivers, to h, exactly that frame, and the others give nothing. -/
def Obligations.SentFrameIsDeliveredExactlyOnce : Prop :=
  ∀ (s : State) (flags ty : Byte) (payload : Option (List Byte)) (len : Nat) (h : HandlerId) (now : Nat),
    Inv s → s.fault = none → s.phase = .idle → ty.toNat < s.cfg.typeCount →
    s.handlers[ty.toNat]? = some (some h) → payloadTooShort s.cfg payload len = false →
    ∃ t, runInstrs ((buildFrame s.cfg flags ty payload len).map fun b => .rxb b now) s = .next t ∧
      t.phase = .dispatching ∧
      t.outputs = s.outputs ++ List.replicate (s.cfg.frameSize - 1) ⟨.ok, []⟩ ++
        [⟨.ok, [.deliver h (buildFrame s.cfg flags ty payload len)]⟩]

/-- Resynchronization finds the frame (95_test_vectors.md 1.2; 41_framing.md R141): a receiver that is Idle and unfaulted and
has a handler h for the type takes any bytes before a sent frame and then the frame. If no FRAME_SIZE bytes that start at
a MARKER before the frame pass the checksum and type checks, exactly the last byte delivers, to h, exactly that frame, and
no byte before it delivers anything. -/
def Obligations.AFrameAfterGarbageIsDeliveredOnce : Prop :=
  ∀ (s : State) (garbage : List Byte) (flags ty : Byte) (payload : Option (List Byte)) (len : Nat) (h : HandlerId)
    (now : Nat), Inv s → s.fault = none → s.phase = .idle → ty.toNat < s.cfg.typeCount →
    s.handlers[ty.toNat]? = some (some h) → payloadTooShort s.cfg payload len = false →
    (∀ p, p < garbage.length → garbage[p]? = some s.cfg.marker →
      ¬ (verify s.cfg.payloadCap (windowAt s.cfg (garbage ++ buildFrame s.cfg flags ty payload len) p) = true ∧
        ∃ u, (garbage ++ buildFrame s.cfg flags ty payload len)[p + 1]? = some u ∧ u.toNat < s.cfg.typeCount)) →
    ∃ t outs, runInstrs ((garbage ++ buildFrame s.cfg flags ty payload len).map fun b => .rxb b now) s = .next t ∧
      t.phase = .dispatching ∧ t.buf = buildFrame s.cfg flags ty payload len ∧
      t.outputs = s.outputs ++ outs ++ [⟨.ok, [.deliver h (buildFrame s.cfg flags ty payload len)]⟩] ∧
      outs.length + 1 = garbage.length + s.cfg.frameSize ∧
      ∀ o ∈ outs, o.response = .ok ∧ o.events.filter Event.isArchitectural = []

/-- 30_encoding.md R90 with 41_framing.md R138: an UPDATE with no bytes is one POLL; the bytes of one UPDATE may be cut into
two at any place: draining them in two UPDATEs at the same clock value, each of at least one byte, gives the same outcome,
whatever the handlers do. -/
def Obligations.UpdateMayBeCutAnywhere : Prop :=
  (∀ (code : HandlerCode) (now : Nat) (s : State), update code now [] s = exec (.poll now) s) ∧
  (∀ (code : HandlerCode) (now : Nat) (xs ys : List Byte) (s t : State), xs ≠ [] → ys ≠ [] →
    update code now xs s = .next t → update code now (xs ++ ys) s = update code now ys t)
end

