-- ==== Sys2Proof/Laws/State.lean ====
section
/-! SUPPORT. What each update of the state does to each field: one lemma a field a shared update, for simp, so that no later
proof unfolds a record update. -/

namespace Sys2Proof.Machine

open Sys2Proof

/-! ## respond and refuse (output port) -/

@[simp] theorem State.respond_cfg (s : State) (r : Response) (es : List Event) : (s.respond r es).cfg = s.cfg := rfl
@[simp] theorem State.respond_phase (s : State) (r : Response) (es : List Event) : (s.respond r es).phase = s.phase := rfl
@[simp] theorem State.respond_count (s : State) (r : Response) (es : List Event) : (s.respond r es).count = s.count := rfl
@[simp] theorem State.respond_buf (s : State) (r : Response) (es : List Event) : (s.respond r es).buf = s.buf := rfl
@[simp] theorem State.respond_startTs (s : State) (r : Response) (es : List Event) : (s.respond r es).startTs = s.startTs := rfl
@[simp] theorem State.respond_handlers (s : State) (r : Response) (es : List Event) : (s.respond r es).handlers = s.handlers := rfl
@[simp] theorem State.respond_txFlags (s : State) (r : Response) (es : List Event) : (s.respond r es).txFlags = s.txFlags := rfl
@[simp] theorem State.respond_fault (s : State) (r : Response) (es : List Event) : (s.respond r es).fault = s.fault := rfl
@[simp] theorem State.respond_counters (s : State) (r : Response) (es : List Event) : (s.respond r es).counters = s.counters := rfl
@[simp] theorem State.respond_inputs (s : State) (r : Response) (es : List Event) : (s.respond r es).inputs = s.inputs := rfl
@[simp] theorem State.respond_outputs (s : State) (r : Response) (es : List Event) : (s.respond r es).outputs = s.outputs ++ [⟨r, es⟩] := rfl

@[simp] theorem State.refuse_cfg (s : State) (e : ErrCode) : (s.refuse e).cfg = s.cfg := rfl
@[simp] theorem State.refuse_phase (s : State) (e : ErrCode) : (s.refuse e).phase = s.phase := rfl
@[simp] theorem State.refuse_count (s : State) (e : ErrCode) : (s.refuse e).count = s.count := rfl
@[simp] theorem State.refuse_buf (s : State) (e : ErrCode) : (s.refuse e).buf = s.buf := rfl
@[simp] theorem State.refuse_startTs (s : State) (e : ErrCode) : (s.refuse e).startTs = s.startTs := rfl
@[simp] theorem State.refuse_handlers (s : State) (e : ErrCode) : (s.refuse e).handlers = s.handlers := rfl
@[simp] theorem State.refuse_txFlags (s : State) (e : ErrCode) : (s.refuse e).txFlags = s.txFlags := rfl
@[simp] theorem State.refuse_fault (s : State) (e : ErrCode) : (s.refuse e).fault = s.fault := rfl
@[simp] theorem State.refuse_counters (s : State) (e : ErrCode) : (s.refuse e).counters = s.counters := rfl
@[simp] theorem State.refuse_inputs (s : State) (e : ErrCode) : (s.refuse e).inputs = s.inputs := rfl
@[simp] theorem State.refuse_outputs (s : State) (e : ErrCode) : (s.refuse e).outputs = s.outputs ++ [⟨.err e, []⟩] := rfl

/-! ## raise (fault entry) -/

@[simp] theorem State.raise_cfg (s : State) (c : FaultCode) : (s.raise c).cfg = s.cfg := rfl
@[simp] theorem State.raise_phase (s : State) (c : FaultCode) : (s.raise c).phase = s.phase := rfl
@[simp] theorem State.raise_count (s : State) (c : FaultCode) : (s.raise c).count = s.count := rfl
@[simp] theorem State.raise_buf (s : State) (c : FaultCode) : (s.raise c).buf = s.buf := rfl
@[simp] theorem State.raise_startTs (s : State) (c : FaultCode) : (s.raise c).startTs = s.startTs := rfl
@[simp] theorem State.raise_handlers (s : State) (c : FaultCode) : (s.raise c).handlers = s.handlers := rfl
@[simp] theorem State.raise_txFlags (s : State) (c : FaultCode) : (s.raise c).txFlags = s.txFlags := rfl
@[simp] theorem State.raise_fault (s : State) (c : FaultCode) : (s.raise c).fault = some c := rfl
@[simp] theorem State.raise_counters (s : State) (c : FaultCode) : (s.raise c).counters = s.counters := rfl
@[simp] theorem State.raise_inputs (s : State) (c : FaultCode) : (s.raise c).inputs = s.inputs := rfl
@[simp] theorem State.raise_outputs (s : State) (c : FaultCode) : (s.raise c).outputs = s.outputs ++ [⟨.fault c, []⟩] := rfl

/-! ## bump (counters) -/

@[simp] theorem State.bump_cfg (s : State) (n : CounterName) : (s.bump n).cfg = s.cfg := by
  unfold State.bump; split <;> rfl
@[simp] theorem State.bump_phase (s : State) (n : CounterName) : (s.bump n).phase = s.phase := by
  unfold State.bump; split <;> rfl
@[simp] theorem State.bump_count (s : State) (n : CounterName) : (s.bump n).count = s.count := by
  unfold State.bump; split <;> rfl
@[simp] theorem State.bump_buf (s : State) (n : CounterName) : (s.bump n).buf = s.buf := by
  unfold State.bump; split <;> rfl
@[simp] theorem State.bump_startTs (s : State) (n : CounterName) : (s.bump n).startTs = s.startTs := by
  unfold State.bump; split <;> rfl
@[simp] theorem State.bump_handlers (s : State) (n : CounterName) : (s.bump n).handlers = s.handlers := by
  unfold State.bump; split <;> rfl
@[simp] theorem State.bump_txFlags (s : State) (n : CounterName) : (s.bump n).txFlags = s.txFlags := by
  unfold State.bump; split <;> rfl
@[simp] theorem State.bump_fault (s : State) (n : CounterName) : (s.bump n).fault = s.fault := by
  unfold State.bump; split <;> rfl
@[simp] theorem State.bump_counters (s : State) (n : CounterName) : (s.bump n).counters = if s.cfg.hasCounters then s.counters.incr n else s.counters := by
  unfold State.bump; split <;> rfl
@[simp] theorem State.bump_inputs (s : State) (n : CounterName) : (s.bump n).inputs = s.inputs := by
  unfold State.bump; split <;> rfl
@[simp] theorem State.bump_outputs (s : State) (n : CounterName) : (s.bump n).outputs = s.outputs := by
  unfold State.bump; split <;> rfl

/-! ## toIdle (return to Idle) -/

@[simp] theorem State.toIdle_cfg (s : State) : (s.toIdle).cfg = s.cfg := rfl
@[simp] theorem State.toIdle_phase (s : State) : (s.toIdle).phase = .idle := rfl
@[simp] theorem State.toIdle_count (s : State) : (s.toIdle).count = 0 := rfl
@[simp] theorem State.toIdle_buf (s : State) : (s.toIdle).buf = s.buf := rfl
@[simp] theorem State.toIdle_startTs (s : State) : (s.toIdle).startTs = s.startTs := rfl
@[simp] theorem State.toIdle_handlers (s : State) : (s.toIdle).handlers = s.handlers := rfl
@[simp] theorem State.toIdle_txFlags (s : State) : (s.toIdle).txFlags = s.txFlags := rfl
@[simp] theorem State.toIdle_fault (s : State) : (s.toIdle).fault = s.fault := rfl
@[simp] theorem State.toIdle_counters (s : State) : (s.toIdle).counters = s.counters := rfl
@[simp] theorem State.toIdle_inputs (s : State) : (s.toIdle).inputs = s.inputs := rfl
@[simp] theorem State.toIdle_outputs (s : State) : (s.toIdle).outputs = s.outputs := rfl

/-! ## startFrame (start of a frame) -/

@[simp] theorem State.startFrame_cfg (s : State) (now : Nat) : (s.startFrame now).cfg = s.cfg := by
  unfold State.startFrame; split <;> simp_all
@[simp] theorem State.startFrame_phase (s : State) (now : Nat) : (s.startFrame now).phase = if s.phase = .idle then .accumulating else s.phase := by
  unfold State.startFrame; split <;> simp_all
@[simp] theorem State.startFrame_count (s : State) (now : Nat) : (s.startFrame now).count = s.count := by
  unfold State.startFrame; split <;> simp_all
@[simp] theorem State.startFrame_buf (s : State) (now : Nat) : (s.startFrame now).buf = s.buf := by
  unfold State.startFrame; split <;> simp_all
@[simp] theorem State.startFrame_startTs (s : State) (now : Nat) : (s.startFrame now).startTs = if s.phase = .idle then clockValue s.cfg now else s.startTs := by
  unfold State.startFrame; split <;> simp_all
@[simp] theorem State.startFrame_handlers (s : State) (now : Nat) : (s.startFrame now).handlers = s.handlers := by
  unfold State.startFrame; split <;> simp_all
@[simp] theorem State.startFrame_txFlags (s : State) (now : Nat) : (s.startFrame now).txFlags = s.txFlags := by
  unfold State.startFrame; split <;> simp_all
@[simp] theorem State.startFrame_fault (s : State) (now : Nat) : (s.startFrame now).fault = s.fault := by
  unfold State.startFrame; split <;> simp_all
@[simp] theorem State.startFrame_counters (s : State) (now : Nat) : (s.startFrame now).counters = s.counters := by
  unfold State.startFrame; split <;> simp_all
@[simp] theorem State.startFrame_inputs (s : State) (now : Nat) : (s.startFrame now).inputs = s.inputs := by
  unfold State.startFrame; split <;> simp_all
@[simp] theorem State.startFrame_outputs (s : State) (now : Nat) : (s.startFrame now).outputs = s.outputs := by
  unfold State.startFrame; split <;> simp_all

/-! ## shiftBuf (resynchronization shift) -/

@[simp] theorem State.shiftBuf_cfg (s : State) (i : Nat) : (s.shiftBuf i).cfg = s.cfg := rfl
@[simp] theorem State.shiftBuf_phase (s : State) (i : Nat) : (s.shiftBuf i).phase = s.phase := rfl
@[simp] theorem State.shiftBuf_count (s : State) (i : Nat) : (s.shiftBuf i).count = s.count - i := rfl
@[simp] theorem State.shiftBuf_buf (s : State) (i : Nat) : (s.shiftBuf i).buf = (s.buf.drop i).take (s.count - i) ++ s.buf.drop (s.count - i) := rfl
@[simp] theorem State.shiftBuf_startTs (s : State) (i : Nat) : (s.shiftBuf i).startTs = s.startTs := rfl
@[simp] theorem State.shiftBuf_handlers (s : State) (i : Nat) : (s.shiftBuf i).handlers = s.handlers := rfl
@[simp] theorem State.shiftBuf_txFlags (s : State) (i : Nat) : (s.shiftBuf i).txFlags = s.txFlags := rfl
@[simp] theorem State.shiftBuf_fault (s : State) (i : Nat) : (s.shiftBuf i).fault = s.fault := rfl
@[simp] theorem State.shiftBuf_counters (s : State) (i : Nat) : (s.shiftBuf i).counters = s.counters := rfl
@[simp] theorem State.shiftBuf_inputs (s : State) (i : Nat) : (s.shiftBuf i).inputs = s.inputs := rfl
@[simp] theorem State.shiftBuf_outputs (s : State) (i : Nat) : (s.shiftBuf i).outputs = s.outputs := rfl

/-! ## deliver, dropUnregistered, endDispatch (handler invocation) -/

@[simp] theorem State.deliver_cfg (s : State) (h : HandlerId) : (s.deliver h).cfg = s.cfg := by
  simp [State.deliver]
@[simp] theorem State.deliver_phase (s : State) (h : HandlerId) : (s.deliver h).phase = .dispatching := by
  simp [State.deliver]
@[simp] theorem State.deliver_count (s : State) (h : HandlerId) : (s.deliver h).count = s.count := by
  simp [State.deliver]
@[simp] theorem State.deliver_buf (s : State) (h : HandlerId) : (s.deliver h).buf = s.buf := by
  simp [State.deliver]
@[simp] theorem State.deliver_startTs (s : State) (h : HandlerId) : (s.deliver h).startTs = s.startTs := by
  simp [State.deliver]
@[simp] theorem State.deliver_handlers (s : State) (h : HandlerId) : (s.deliver h).handlers = s.handlers := by
  simp [State.deliver]
@[simp] theorem State.deliver_txFlags (s : State) (h : HandlerId) : (s.deliver h).txFlags = s.txFlags := by
  simp [State.deliver]
@[simp] theorem State.deliver_fault (s : State) (h : HandlerId) : (s.deliver h).fault = s.fault := by
  simp [State.deliver]
@[simp] theorem State.deliver_counters (s : State) (h : HandlerId) : (s.deliver h).counters = if s.cfg.hasCounters then s.counters.incr .deliver else s.counters := by
  simp [State.deliver]
@[simp] theorem State.deliver_inputs (s : State) (h : HandlerId) : (s.deliver h).inputs = s.inputs := by
  simp [State.deliver]
@[simp] theorem State.deliver_outputs (s : State) (h : HandlerId) : (s.deliver h).outputs = s.outputs ++ [⟨.ok, [.deliver h s.frame]⟩] := by
  simp [State.deliver]

@[simp] theorem State.dropUnregistered_cfg (s : State) (t : Byte) : (s.dropUnregistered t).cfg = s.cfg := by
  simp [State.dropUnregistered]
@[simp] theorem State.dropUnregistered_phase (s : State) (t : Byte) : (s.dropUnregistered t).phase = .idle := by
  simp [State.dropUnregistered]
@[simp] theorem State.dropUnregistered_count (s : State) (t : Byte) : (s.dropUnregistered t).count = 0 := by
  simp [State.dropUnregistered]
@[simp] theorem State.dropUnregistered_buf (s : State) (t : Byte) : (s.dropUnregistered t).buf = s.buf := by
  simp [State.dropUnregistered]
@[simp] theorem State.dropUnregistered_startTs (s : State) (t : Byte) : (s.dropUnregistered t).startTs = s.startTs := by
  simp [State.dropUnregistered]
@[simp] theorem State.dropUnregistered_handlers (s : State) (t : Byte) : (s.dropUnregistered t).handlers = s.handlers := by
  simp [State.dropUnregistered]
@[simp] theorem State.dropUnregistered_txFlags (s : State) (t : Byte) : (s.dropUnregistered t).txFlags = s.txFlags := by
  simp [State.dropUnregistered]
@[simp] theorem State.dropUnregistered_fault (s : State) (t : Byte) : (s.dropUnregistered t).fault = s.fault := by
  simp [State.dropUnregistered]
@[simp] theorem State.dropUnregistered_counters (s : State) (t : Byte) : (s.dropUnregistered t).counters = if s.cfg.hasCounters then s.counters.incr .unreg else s.counters := by
  simp [State.dropUnregistered]
@[simp] theorem State.dropUnregistered_inputs (s : State) (t : Byte) : (s.dropUnregistered t).inputs = s.inputs := by
  simp [State.dropUnregistered]
@[simp] theorem State.dropUnregistered_outputs (s : State) (t : Byte) : (s.dropUnregistered t).outputs = s.outputs ++ [⟨.ok, [.unregistered t]⟩] := by
  simp [State.dropUnregistered]

@[simp] theorem State.endDispatch_cfg (s : State) : (s.endDispatch).cfg = s.cfg := rfl
@[simp] theorem State.endDispatch_phase (s : State) : (s.endDispatch).phase = .idle := rfl
@[simp] theorem State.endDispatch_count (s : State) : (s.endDispatch).count = 0 := rfl
@[simp] theorem State.endDispatch_buf (s : State) : (s.endDispatch).buf = s.buf := rfl
@[simp] theorem State.endDispatch_startTs (s : State) : (s.endDispatch).startTs = s.startTs := rfl
@[simp] theorem State.endDispatch_handlers (s : State) : (s.endDispatch).handlers = s.handlers := rfl
@[simp] theorem State.endDispatch_txFlags (s : State) : (s.endDispatch).txFlags = s.txFlags := rfl
@[simp] theorem State.endDispatch_fault (s : State) : (s.endDispatch).fault = s.fault := rfl
@[simp] theorem State.endDispatch_counters (s : State) : (s.endDispatch).counters = s.counters := rfl
@[simp] theorem State.endDispatch_inputs (s : State) : (s.endDispatch).inputs = s.inputs := rfl
@[simp] theorem State.endDispatch_outputs (s : State) : (s.endDispatch).outputs = s.outputs ++ [⟨.ok, []⟩] := rfl

/-! ## discardPartial (timeout) -/

@[simp] theorem State.discardPartial_cfg (s : State) : (s.discardPartial).cfg = s.cfg := by
  simp [State.discardPartial]
@[simp] theorem State.discardPartial_phase (s : State) : (s.discardPartial).phase = .idle := by
  simp [State.discardPartial]
@[simp] theorem State.discardPartial_count (s : State) : (s.discardPartial).count = 0 := by
  simp [State.discardPartial]
@[simp] theorem State.discardPartial_buf (s : State) : (s.discardPartial).buf = s.buf := by
  simp [State.discardPartial]
@[simp] theorem State.discardPartial_startTs (s : State) : (s.discardPartial).startTs = s.startTs := by
  simp [State.discardPartial]
@[simp] theorem State.discardPartial_handlers (s : State) : (s.discardPartial).handlers = s.handlers := by
  simp [State.discardPartial]
@[simp] theorem State.discardPartial_txFlags (s : State) : (s.discardPartial).txFlags = s.txFlags := by
  simp [State.discardPartial]
@[simp] theorem State.discardPartial_fault (s : State) : (s.discardPartial).fault = s.fault := by
  simp [State.discardPartial]
@[simp] theorem State.discardPartial_counters (s : State) : (s.discardPartial).counters = if s.cfg.hasCounters then s.counters.incr .timeout else s.counters := by
  rw [State.discardPartial, State.respond_counters, State.bump_counters]; rfl
@[simp] theorem State.discardPartial_inputs (s : State) : (s.discardPartial).inputs = s.inputs := by
  simp [State.discardPartial]
@[simp] theorem State.discardPartial_outputs (s : State) : (s.discardPartial).outputs = s.outputs ++ [⟨.ok, [.timeout]⟩] := by
  simp [State.discardPartial]

/-! ## transmit -/

@[simp] theorem State.transmit_cfg (s : State) (f : List Byte) : (s.transmit f).cfg = s.cfg := by
  simp [State.transmit]
@[simp] theorem State.transmit_phase (s : State) (f : List Byte) : (s.transmit f).phase = s.phase := by
  simp [State.transmit]
@[simp] theorem State.transmit_count (s : State) (f : List Byte) : (s.transmit f).count = s.count := by
  simp [State.transmit]
@[simp] theorem State.transmit_buf (s : State) (f : List Byte) : (s.transmit f).buf = s.buf := by
  simp [State.transmit]
@[simp] theorem State.transmit_startTs (s : State) (f : List Byte) : (s.transmit f).startTs = s.startTs := by
  simp [State.transmit]
@[simp] theorem State.transmit_handlers (s : State) (f : List Byte) : (s.transmit f).handlers = s.handlers := by
  simp [State.transmit]
@[simp] theorem State.transmit_txFlags (s : State) (f : List Byte) : (s.transmit f).txFlags = s.txFlags := by
  simp [State.transmit]
@[simp] theorem State.transmit_fault (s : State) (f : List Byte) : (s.transmit f).fault = s.fault := by
  simp [State.transmit]
@[simp] theorem State.transmit_counters (s : State) (f : List Byte) : (s.transmit f).counters = if s.cfg.hasCounters then s.counters.incr .tx else s.counters := by
  simp [State.transmit]
@[simp] theorem State.transmit_inputs (s : State) (f : List Byte) : (s.transmit f).inputs = s.inputs := by
  simp [State.transmit]
@[simp] theorem State.transmit_outputs (s : State) (f : List Byte) : (s.transmit f).outputs = s.outputs ++ [⟨.ok, [.tx f]⟩] := by
  simp [State.transmit]

/-! ## applyReset and resetWith -/

@[simp] theorem State.applyReset_cfg (s : State) : (s.applyReset).cfg = s.cfg := rfl
@[simp] theorem State.applyReset_phase (s : State) : (s.applyReset).phase = .idle := rfl
@[simp] theorem State.applyReset_count (s : State) : (s.applyReset).count = 0 := rfl
@[simp] theorem State.applyReset_buf (s : State) : (s.applyReset).buf = List.replicate s.cfg.frameSize 0 := rfl
@[simp] theorem State.applyReset_startTs (s : State) : (s.applyReset).startTs = 0 := rfl
@[simp] theorem State.applyReset_handlers (s : State) : (s.applyReset).handlers = List.replicate s.cfg.typeCount none := rfl
@[simp] theorem State.applyReset_txFlags (s : State) : (s.applyReset).txFlags = 0x00 := rfl
@[simp] theorem State.applyReset_fault (s : State) : (s.applyReset).fault = none := rfl
@[simp] theorem State.applyReset_counters (s : State) : (s.applyReset).counters = Counters.zero := rfl
@[simp] theorem State.applyReset_inputs (s : State) : (s.applyReset).inputs = s.inputs := rfl
@[simp] theorem State.applyReset_outputs (s : State) : (s.applyReset).outputs = s.outputs := rfl

/-! ## counters -/

theorem Counters.get_incr (c : Counters) (m n : CounterName) :
    (c.incr m).get n = if n = m then c.get n + 1 else c.get n := by
  cases m <;> cases n <;> rfl

@[simp] theorem Counters.get_zero (n : CounterName) : Counters.zero.get n = 0 := by
  cases n <;> rfl

/-- What an increment does, in any build (44_status.md R200). -/
theorem State.bump_get (s : State) (m n : CounterName) :
    (s.bump m).counters.get n = if s.cfg.hasCounters ∧ n = m then s.counters.get n + 1 else s.counters.get n := by
  rw [State.bump_counters]
  split <;> simp_all [Counters.get_incr]

end Sys2Proof.Machine
end

