-- ==== Sys2Proof/Laws/Checksum.lean ====
section
/-! SUPPORT. The ChecksumEngine's small lemmas (spec/40_checksum.md R101, R103, R104). -/

namespace Sys2Proof.Machine

open Sys2Proof

theorem fletcher_nil : fletcher [] = (0, 0) := rfl

theorem fletcher_append (s u : List Byte) : fletcher (s ++ u) = u.foldl fletcherStep (fletcher s) :=
  List.foldl_append

theorem fletcher_concat (s : List Byte) (b : Byte) : fletcher (s ++ [b]) = fletcherStep (fletcher s) b :=
  fletcher_append s [b]

theorem foldl_fletcherStep_lt (s : List Byte) (a : Nat × Nat) (h1 : a.1 < 255) (h2 : a.2 < 255) :
    (s.foldl fletcherStep a).1 < 255 ∧ (s.foldl fletcherStep a).2 < 255 := by
  induction s generalizing a with
  | nil => exact ⟨h1, h2⟩
  | cons b s ih => exact ih _ (Nat.mod_lt _ (by decide)) (Nat.mod_lt _ (by decide))

/-- Both sums are in [0, 254] (R103). -/
theorem fletcher_lt (s : List Byte) : (fletcher s).1 < 255 ∧ (fletcher s).2 < 255 :=
  foldl_fletcherStep_lt s (0, 0) (by decide) (by decide)

/-- What a true verification says (R104). -/
theorem verify_iff (p : Nat) (f : List Byte) :
    verify p f = true ↔
      ∃ x y : Byte, f[p + 3]? = some x ∧ f[p + 4]? = some y ∧ fletcher (f.take (p + 3)) = (x.toNat, y.toNat) := by
  unfold verify
  cases h3 : f[p + 3]? <;> cases h4 : f[p + 4]? <;> simp only [Option.map_none, Option.map_some, Bool.and_eq_true,
    beq_iff_eq, reduceCtorEq, false_and, and_false, exists_false, Option.some.injEq, Prod.ext_iff]
  constructor
  · rintro ⟨hx, hy⟩
    exact ⟨_, _, rfl, rfl, hx.symm, hy.symm⟩
  · rintro ⟨x, y, rfl, rfl, hx, hy⟩
    exact ⟨hx.symm, hy.symm⟩

/-- A verified frame holds both checksum bytes. -/
theorem length_of_verify {p : Nat} {f : List Byte} (h : verify p f = true) : p + 4 < f.length := by
  obtain ⟨_, y, _, hy, _⟩ := (verify_iff p f).1 h
  exact (List.getElem?_eq_some_iff.1 hy).1

/-- A checksum byte holds its sum whole. -/
theorem toNat_ofNat_of_lt_255 {n : Nat} (h : n < 255) : (BitVec.ofNat 8 n).toNat = n := by
  simp only [BitVec.toNat_ofNat]; omega

/-- Bytes followed by their own checksum bytes pass verification (R104, 43_sender.md R182). -/
theorem verify_append_checksumBytes (s : List Byte) (p : Nat) (h : s.length = p + 3) :
    verify p (s ++ checksumBytes s) = true := by
  refine (verify_iff _ _).2 ⟨BitVec.ofNat 8 (fletcher s).1, BitVec.ofNat 8 (fletcher s).2, ?_, ?_, ?_⟩
  · simp [checksumBytes, h]
  · simp [checksumBytes, h]
  · rw [← h, List.take_left', toNat_ofNat_of_lt_255 (fletcher_lt s).1, toNat_ofNat_of_lt_255 (fletcher_lt s).2]
    rfl

end Sys2Proof.Machine
end

