-- ==== Sys2Proof/Laws/Buffer.lean ====
section
/-! SUPPORT. The receive buffer, the handler table and the transmit frame: one lemma an operation that says all it can do,
and that every operation keeps the stores' lengths (spec/10_state.md R24, R27; spec/20_memory.md R51, R52). -/

namespace Sys2Proof.Machine

open Sys2Proof

/-! ## append -/

theorem State.append_eq_some {s t : State} {b : Byte} :
    s.append b = some t ↔
      s.count < s.buf.length ∧ t = { s with buf := s.buf.set s.count b, count := s.count + 1 } := by
  unfold State.append
  split <;> simp_all [eq_comm]

theorem State.append_eq_none {s : State} {b : Byte} : s.append b = none ↔ s.buf.length ≤ s.count := by
  unfold State.append
  split <;> simp_all

theorem State.append_of_lt {s : State} {b : Byte} (h : s.count < s.buf.length) :
    s.append b = some { s with buf := s.buf.set s.count b, count := s.count + 1 } :=
  append_eq_some.2 ⟨h, rfl⟩

/-- The byte appended is read back at its offset, and every other offset reads as before. -/
theorem State.append_getElem? {s t : State} {b : Byte} (h : s.append b = some t) (k : Nat) :
    t.buf[k]? = if k = s.count then some b else s.buf[k]? := by
  obtain ⟨hlt, rfl⟩ := append_eq_some.1 h
  by_cases hk : k = s.count
  · subst hk; simp [hlt]
  · simp [hk, List.getElem?_set_ne (Ne.symm hk)]

theorem State.append_buf_length {s t : State} {b : Byte} (h : s.append b = some t) :
    t.buf.length = s.buf.length := by
  obtain ⟨_, rfl⟩ := append_eq_some.1 h
  simp

/-! ## nextMarker -/

/-- The least later MARKER (41_framing.md R131). -/
theorem State.nextMarker_eq_some {s : State} {i : Nat} :
    s.nextMarker = some i ↔
      1 ≤ i ∧ i < s.count ∧ s.buf[i]? = some s.cfg.marker ∧
        ∀ j, 1 ≤ j → j < i → s.buf[j]? ≠ some s.cfg.marker := by
  simp only [State.nextMarker, List.find?_range_eq_some]
  simp only [Bool.and_eq_true, decide_eq_true_eq, beq_iff_eq, List.mem_range, Bool.not_eq_true',
    Bool.and_eq_false_iff, decide_eq_false_iff_not, beq_eq_false_iff_ne]
  constructor
  · rintro ⟨⟨h1, h2⟩, h3, h4⟩
    exact ⟨h1, h3, h2, fun j hj hji => (h4 j hji).resolve_left (by omega)⟩
  · rintro ⟨h1, h2, h3, h4⟩
    exact ⟨⟨h1, h3⟩, h2, fun j hji => by
      by_cases hj : 1 ≤ j
      · exact .inr (h4 j hj hji)
      · exact .inl hj⟩

theorem State.nextMarker_eq_none {s : State} :
    s.nextMarker = none ↔ ∀ j, 1 ≤ j → j < s.count → s.buf[j]? ≠ some s.cfg.marker := by
  simp [State.nextMarker, List.find?_eq_none]
  constructor
  · intro h j h1 h2; exact h j h2 h1
  · intro h j h2 h1; exact h j h1 h2

/-! ## shiftBuf -/

theorem State.shiftBuf_buf_length {s : State} {i : Nat} (hi : i ≤ s.count) (hc : s.count ≤ s.buf.length) :
    (s.shiftBuf i).buf.length = s.buf.length := by
  simp; omega

/-- The moved bytes (41_framing.md R132). -/
theorem State.shiftBuf_getElem?_lt {s : State} {i k : Nat} (hc : s.count ≤ s.buf.length) (hk : k < s.count - i) :
    (s.shiftBuf i).buf[k]? = s.buf[k + i]? := by
  simp only [State.shiftBuf_buf]
  rw [List.getElem?_append_left (by simp; omega), List.getElem?_take_of_lt hk, List.getElem?_drop, Nat.add_comm]

/-- The bytes at offsets at or beyond the new count. -/
theorem State.shiftBuf_getElem?_ge {s : State} {i k : Nat} (hc : s.count ≤ s.buf.length)
    (hk : s.count - i ≤ k) : (s.shiftBuf i).buf[k]? = s.buf[k]? := by
  simp only [State.shiftBuf_buf]
  have hl : ((s.buf.drop i).take (s.count - i)).length = s.count - i := by simp; omega
  rw [List.getElem?_append_right (by omega), hl, List.getElem?_drop]
  congr 1; omega

/-! ## the handler table -/

theorem State.setHandler_eq_some {s t : State} {ty : Byte} {h : HandlerId} :
    s.setHandler ty h = some t ↔
      ty.toNat < s.handlers.length ∧ t = { s with handlers := s.handlers.set ty.toNat (some h) } := by
  unfold State.setHandler
  split <;> simp_all [eq_comm]

/-! ## the transmit frame -/

theorem payloadField_length {c : Config} {payload : Option (List Byte)} {len : Nat}
    (h : payloadTooShort c payload len = false) : (payloadField c payload len).length = c.payloadCap := by
  cases payload with
  | none => simp [payloadField]
  | some p =>
    have h : ¬ p.length < min len c.payloadCap := by simpa [payloadTooShort, copyLength] using h
    simp only [payloadField, copyLength, List.length_append, List.length_take, List.length_replicate]
    omega

theorem coveredBytes_length {c : Config} {flags ty : Byte} {payload : Option (List Byte)} {len : Nat}
    (h : payloadTooShort c payload len = false) :
    (coveredBytes c flags ty payload len).length = c.payloadCap + 3 := by
  simp [coveredBytes, payloadField_length h]

theorem buildFrame_length {c : Config} {flags ty : Byte} {payload : Option (List Byte)} {len : Nat}
    (h : payloadTooShort c payload len = false) :
    (buildFrame c flags ty payload len).length = c.frameSize := by
  simp [buildFrame, coveredBytes_length h, checksumBytes, Config.frameSize]

/-- The bytes of a built frame that its checksum covers. -/
theorem buildFrame_take {c : Config} {flags ty : Byte} {payload : Option (List Byte)} {len : Nat}
    (h : payloadTooShort c payload len = false) :
    (buildFrame c flags ty payload len).take (c.payloadCap + 3) = coveredBytes c flags ty payload len := by
  rw [buildFrame, ← coveredBytes_length (flags := flags) (ty := ty) h, List.take_left']
  rfl

/-- The first three bytes of a built frame (30_encoding.md R70). -/
theorem buildFrame_header (c : Config) (flags ty : Byte) (payload : Option (List Byte)) (len : Nat) :
    (buildFrame c flags ty payload len)[0]? = some c.marker ∧ (buildFrame c flags ty payload len)[1]? = some ty ∧
      (buildFrame c flags ty payload len)[2]? = some flags := by
  simp [buildFrame, coveredBytes]

end Sys2Proof.Machine
end

