-- ==== Sys2Proof/Laws/Decode.lean ====
section
/-! SUPPORT. The command word's fields as numbers and their packing (spec/30_encoding.md R80). -/

namespace Sys2Proof

theorem opcOf_toNat (w : CmdWord) : (opcOf w).toNat = w.toNat / 4096 := by
  simp [opcOf, Nat.shiftRight_eq_div_pow]; omega

theorem vOf_eq (w : CmdWord) : vOf w = decide (w.toNat / 2048 % 2 = 1) := by
  simp [vOf, BitVec.getLsbD, Nat.testBit_eq_decide_div_mod_eq]

theorem idxOf_toNat (w : CmdWord) : (idxOf w).toNat = w.toNat / 256 % 8 := by
  simp [idxOf, Nat.shiftRight_eq_div_pow]

theorem a8Of_toNat (w : CmdWord) : (a8Of w).toNat = w.toNat % 256 := by
  simp [a8Of]

/-- The packed word's value, field by field (R80). -/
theorem packFields_toNat (o : BitVec 4) (v : Bool) (i : BitVec 3) (a : Byte) :
    (packFields o v i a).toNat = o.toNat * 4096 + v.toNat * 2048 + i.toNat * 256 + a.toNat := by
  have hv : v.toNat < 2 := Bool.toNat_lt v
  have hi := i.isLt
  have ha := a.isLt
  simp only [packFields, BitVec.toNat_append, BitVec.toNat_ofBool]
  rw [← Nat.shiftLeft_add_eq_or_of_lt (by simpa using ha), ← Nat.shiftLeft_add_eq_or_of_lt (by simpa using hi),
    ← Nat.shiftLeft_add_eq_or_of_lt (by simpa using Nat.le_of_lt_succ hv)]
  simp only [Nat.shiftLeft_eq]; omega

@[simp] theorem opcOf_packFields (o : BitVec 4) (v : Bool) (i : BitVec 3) (a : Byte) :
    opcOf (packFields o v i a) = o := by
  have hv : v.toNat < 2 := Bool.toNat_lt v
  apply BitVec.eq_of_toNat_eq; rw [opcOf_toNat, packFields_toNat]; omega

@[simp] theorem vOf_packFields (o : BitVec 4) (v : Bool) (i : BitVec 3) (a : Byte) :
    vOf (packFields o v i a) = v := by
  have hv : v.toNat < 2 := Bool.toNat_lt v
  have : (o.toNat * 4096 + v.toNat * 2048 + i.toNat * 256 + a.toNat) / 2048 % 2 = v.toNat := by omega
  rw [vOf_eq, packFields_toNat, this]; cases v <;> rfl

@[simp] theorem idxOf_packFields (o : BitVec 4) (v : Bool) (i : BitVec 3) (a : Byte) :
    idxOf (packFields o v i a) = i := by
  apply BitVec.eq_of_toNat_eq; rw [idxOf_toNat, packFields_toNat]; omega

@[simp] theorem a8Of_packFields (o : BitVec 4) (v : Bool) (i : BitVec 3) (a : Byte) :
    a8Of (packFields o v i a) = a := by
  apply BitVec.eq_of_toNat_eq; rw [a8Of_toNat, packFields_toNat]; omega

/-- A word is its four fields packed. -/
theorem packFields_fields (w : CmdWord) : packFields (opcOf w) (vOf w) (idxOf w) (a8Of w) = w := by
  apply BitVec.eq_of_toNat_eq
  rw [packFields_toNat, opcOf_toNat, idxOf_toNat, a8Of_toNat, vOf_eq]
  by_cases h : w.toNat / 2048 % 2 = 1 <;> simp [h] <;> omega

theorem requireZero_eq_ok {o : BitVec 4} {z : Bool} {i j : Instr} :
    requireZero o z i = .ok j ↔ z = true ∧ i = j := by
  unfold requireZero; split <;> simp_all

theorem requireZero_eq_error {o : BitVec 4} {z : Bool} {i : Instr} {e : DecodeError} :
    requireZero o z i = .error e ↔ z = false ∧ e = .fixedZeroField o := by
  unfold requireZero; split <;> simp_all [eq_comm]

end Sys2Proof
end

