-- ==== Sys2Proof/Laws/Exec.lean ====
section
/-! SUPPORT. What each shared operation and each instruction can answer: the inversion lemmas that proofs cite instead of
unfolding a meaning (spec/60_exceptions.md R230; spec/41_framing.md R120, R130). -/

namespace Sys2Proof.Machine

open Sys2Proof

/-! ## The two tests before a command's work -/

theorem unlessFaulted_faulted {s : State} {w : Result} (h : s.fault ≠ none) :
    unlessFaulted s w = .next (s.refuse .faulted) := by
  cases hf : s.fault with
  | none => exact absurd hf h
  | some c => simp [unlessFaulted, hf]

theorem unlessFaulted_none {s : State} {w : Result} (h : s.fault = none) : unlessFaulted s w = w := by
  simp [unlessFaulted, h]

theorem unlessDispatching_dispatching {s : State} {w : Result} (h : s.phase = .dispatching) :
    unlessDispatching s w = .next (s.raise .reentrant) := by
  simp [unlessDispatching, h]

theorem unlessDispatching_other {s : State} {w : Result} (h : s.phase ≠ .dispatching) :
    unlessDispatching s w = w := by
  simp [unlessDispatching, h]

theorem unlessFaulted_next {s t : State} {w : Result} (h : unlessFaulted s w = .next t) :
    (s.fault ≠ none ∧ t = s.refuse .faulted) ∨ (s.fault = none ∧ w = .next t) := by
  by_cases hf : s.fault = none
  · exact .inr ⟨hf, by rwa [unlessFaulted_none hf] at h⟩
  · rw [unlessFaulted_faulted hf] at h
    cases h
    exact .inl ⟨hf, rfl⟩

theorem unlessDispatching_next {s t : State} {w : Result} (h : unlessDispatching s w = .next t) :
    (s.phase = .dispatching ∧ t = s.raise .reentrant) ∨ (s.phase ≠ .dispatching ∧ w = .next t) := by
  by_cases hf : s.phase = .dispatching
  · rw [unlessDispatching_dispatching hf] at h
    cases h
    exact .inl ⟨hf, rfl⟩
  · exact .inr ⟨hf, by rwa [unlessDispatching_other hf] at h⟩

/-! ## Resync, Complete and what follows an append -/

/-- What Resync leaves (41_framing.md R130). -/
theorem State.resync_cases (s : State) (cause : DropCause) :
    (∃ i, s.nextMarker = some i ∧
      s.resync cause = ((s.bump .resync).shiftBuf i).respond .ok [.drop cause (.shift i)]) ∨
    (s.nextMarker = none ∧ s.resync cause = (s.bump .resync).toIdle.respond .ok [.drop cause .empty]) := by
  unfold State.resync
  cases s.nextMarker <;> simp

/-- What the handler lookup answers (42_dispatch.md R165, R167). -/
theorem State.complete_next {s t : State} {ty : Byte} (h : s.complete ty = .next t) :
    (∃ hd, s.handlers[ty.toNat]? = some (some hd) ∧ t = s.deliver hd) ∨
    (s.handlers[ty.toNat]? = some none ∧ t = s.dropUnregistered ty) := by
  unfold State.complete at h
  split at h
  · next hd heq => cases h; exact .inl ⟨hd, heq, rfl⟩
  · next heq => cases h; exact .inr ⟨heq, rfl⟩
  · cases h

/-- The outcomes after an append, the first that applies (41_framing.md R120, R127). -/
theorem State.afterAppend_next {s t : State} (h : s.afterAppend = .next t) :
    (s.markerOk = false ∧ t = s.resync .framing) ∨
    (s.markerOk = true ∧ s.count < s.cfg.frameSize ∧ t = s.respond .ok) ∨
    (s.markerOk = true ∧ s.cfg.frameSize ≤ s.count ∧ verify s.cfg.payloadCap s.frame = false ∧
      t = (s.bump .checksum).resync .checksum) ∨
    (s.markerOk = true ∧ s.cfg.frameSize ≤ s.count ∧ verify s.cfg.payloadCap s.frame = true ∧
      typeInRange s.cfg s.frameType = false ∧ t = (s.bump .unkType).resync .unknownType) ∨
    (s.markerOk = true ∧ s.cfg.frameSize ≤ s.count ∧ verify s.cfg.payloadCap s.frame = true ∧
      typeInRange s.cfg s.frameType = true ∧ s.complete s.frameType = .next t) := by
  unfold State.afterAppend at h
  split at h
  · next h1 => cases h; exact .inl ⟨by simpa using h1, rfl⟩
  · next h1 =>
    have h1 : s.markerOk = true := by simpa using h1
    split at h
    · next h2 => cases h; exact .inr (.inl ⟨h1, h2, rfl⟩)
    · next h2 =>
      have h2 : s.cfg.frameSize ≤ s.count := by omega
      split at h
      · next h3 => cases h; exact .inr (.inr (.inl ⟨h1, h2, by simpa using h3, rfl⟩))
      · next h3 =>
        have h3 : verify s.cfg.payloadCap s.frame = true := by simpa using h3
        split at h
        · next h4 => cases h; exact .inr (.inr (.inr (.inl ⟨h1, h2, h3, by simpa using h4, rfl⟩)))
        · next h4 => exact .inr (.inr (.inr (.inr ⟨h1, h2, h3, by simpa using h4, h⟩)))

/-! Which of the outcomes it is, from the state alone. -/

theorem State.afterAppend_of_bad_marker {s : State} (h : s.markerOk = false) :
    s.afterAppend = .next (s.resync .framing) := by
  simp [State.afterAppend, h]

theorem State.afterAppend_of_partial {s : State} (h : s.markerOk = true) (hc : s.count < s.cfg.frameSize) :
    s.afterAppend = .next (s.respond .ok) := by
  simp [State.afterAppend, h, hc]

theorem State.afterAppend_of_bad_checksum {s : State} (h : s.markerOk = true) (hc : s.cfg.frameSize ≤ s.count)
    (hv : verify s.cfg.payloadCap s.frame = false) :
    s.afterAppend = .next ((s.bump .checksum).resync .checksum) := by
  simp [State.afterAppend, h, hv, Nat.not_lt.2 hc]

theorem State.afterAppend_of_unknown_type {s : State} (h : s.markerOk = true) (hc : s.cfg.frameSize ≤ s.count)
    (hv : verify s.cfg.payloadCap s.frame = true) (ht : typeInRange s.cfg s.frameType = false) :
    s.afterAppend = .next ((s.bump .unkType).resync .unknownType) := by
  simp [State.afterAppend, h, hv, ht, Nat.not_lt.2 hc]

theorem State.afterAppend_of_valid {s : State} (h : s.markerOk = true) (hc : s.cfg.frameSize ≤ s.count)
    (hv : verify s.cfg.payloadCap s.frame = true) (ht : typeInRange s.cfg s.frameType = true) :
    s.afterAppend = s.complete s.frameType := by
  simp [State.afterAppend, h, hv, ht, Nat.not_lt.2 hc]

theorem State.complete_of_some {s : State} {t : Byte} {h : HandlerId} (hh : s.handlers[t.toNat]? = some (some h)) :
    s.complete t = .next (s.deliver h) := by
  simp [State.complete, hh]

theorem State.complete_of_none {s : State} {t : Byte} (hh : s.handlers[t.toNat]? = some none) :
    s.complete t = .next (s.dropUnregistered t) := by
  simp [State.complete, hh]

theorem State.resync_of_some {s : State} {i : Nat} (h : s.nextMarker = some i) (cause : DropCause) :
    s.resync cause = ((s.bump .resync).shiftBuf i).respond .ok [.drop cause (.shift i)] := by
  simp [State.resync, h]

theorem State.resync_of_none {s : State} (h : s.nextMarker = none) (cause : DropCause) :
    s.resync cause = (s.bump .resync).toIdle.respond .ok [.drop cause .empty] := by
  simp [State.resync, h]

/-! ## The instructions -/

theorem execRxb_next {b : Byte} {now : Nat} {s t : State} (h : execRxb b now s = .next t) :
    (s.fault ≠ none ∧ t = s.refuse .faulted) ∨
    (s.fault = none ∧ s.phase = .dispatching ∧ t = s.raise .reentrant) ∨
    (s.fault = none ∧ s.phase ≠ .dispatching ∧
      ∃ u, (s.startFrame now).append b = some u ∧ u.afterAppend = .next t) := by
  rcases unlessFaulted_next h with h | ⟨hf, h⟩
  · exact .inl h
  · rcases unlessDispatching_next h with ⟨hp, h⟩ | ⟨hp, h⟩
    · exact .inr (.inl ⟨hf, hp, h⟩)
    · refine .inr (.inr ⟨hf, hp, ?_⟩)
      split at h
      · next u hu => exact ⟨u, hu, h⟩
      · cases h

theorem execPoll_next {now : Nat} {s t : State} (h : execPoll now s = .next t) :
    (s.fault ≠ none ∧ t = s.refuse .faulted) ∨
    (s.fault = none ∧ s.phase = .dispatching ∧ t = s.raise .reentrant) ∨
    (s.fault = none ∧ s.phase = .accumulating ∧ s.timedOut now = true ∧ t = s.discardPartial) ∨
    (s.fault = none ∧ s.phase ≠ .dispatching ∧ s.timedOut now = false ∧ t = s.respond .ok) := by
  rcases unlessFaulted_next h with h | ⟨hf, h⟩
  · exact .inl h
  · rcases unlessDispatching_next h with ⟨hp, h⟩ | ⟨hp, h⟩
    · exact .inr (.inl ⟨hf, hp, h⟩)
    · split at h
      · next ht =>
        have hacc : s.phase = .accumulating := by
          simp only [State.timedOut, Bool.and_eq_true, decide_eq_true_eq] at ht
          exact ht.1
        cases h
        exact .inr (.inr (.inl ⟨hf, hacc, ht, rfl⟩))
      · next ht =>
        cases h
        exact .inr (.inr (.inr ⟨hf, hp, by simpa using ht, rfl⟩))

theorem execHret_next {s t : State} (h : execHret s = .next t) :
    (s.fault ≠ none ∧ t = s.refuse .faulted) ∨
    (s.fault = none ∧ s.phase = .dispatching ∧ t = s.endDispatch) ∨
    (s.fault = none ∧ s.phase ≠ .dispatching ∧ t = s.refuse .notDispatching) := by
  rcases unlessFaulted_next h with h | ⟨hf, h⟩
  · exact .inl h
  · split at h
    · next hp => cases h; exact .inr (.inl ⟨hf, hp, rfl⟩)
    · next hp => cases h; exact .inr (.inr ⟨hf, hp, rfl⟩)

theorem execReg_next {ty : Byte} {hd : HandlerId} {s t : State} (h : execReg ty hd s = .next t) :
    (s.fault ≠ none ∧ t = s.refuse .faulted) ∨
    (s.fault = none ∧ typeInRange s.cfg ty = true ∧ ty.toNat < s.handlers.length ∧
      t = State.respond { s with handlers := s.handlers.set ty.toNat (some hd) } .ok) ∨
    (s.fault = none ∧ typeInRange s.cfg ty = false ∧ t = s.refuse .typeRange) := by
  rcases unlessFaulted_next h with h | ⟨hf, h⟩
  · exact .inl h
  · split at h
    · next hr =>
      split at h
      · next u hu =>
        cases h
        obtain ⟨hl, rfl⟩ := State.setHandler_eq_some.1 hu
        exact .inr (.inl ⟨hf, hr, hl, rfl⟩)
      · cases h
    · next hr => cases h; exact .inr (.inr ⟨hf, by simpa using hr, rfl⟩)

theorem execSend_next {ty : Byte} {payload : Option (List Byte)} {len : Nat} {s t : State}
    (h : execSend ty payload len s = .next t) :
    (s.fault ≠ none ∧ t = s.refuse .faulted) ∨
    (s.fault = none ∧ s.phase = .dispatching ∧ t = s.raise .reentrant) ∨
    (s.fault = none ∧ s.phase ≠ .dispatching ∧ payloadTooShort s.cfg payload len = true ∧
      t = s.raise .payloadShort) ∨
    (s.fault = none ∧ s.phase ≠ .dispatching ∧ payloadTooShort s.cfg payload len = false ∧
      t = s.transmit (buildFrame s.cfg s.txFlags ty payload len)) := by
  rcases unlessFaulted_next h with h | ⟨hf, h⟩
  · exact .inl h
  · rcases unlessDispatching_next h with ⟨hp, h⟩ | ⟨hp, h⟩
    · exact .inr (.inl ⟨hf, hp, h⟩)
    · split at h
      · next hs => cases h; exact .inr (.inr (.inl ⟨hf, hp, hs, rfl⟩))
      · next hs => cases h; exact .inr (.inr (.inr ⟨hf, hp, by simpa using hs, rfl⟩))

theorem execSetf_next {i : BitVec 3} {v : Bool} {s t : State} (h : execSetf i v s = .next t) :
    (s.fault ≠ none ∧ t = s.refuse .faulted) ∨
    (s.fault = none ∧ userFlagInRange i = true ∧
      t = State.respond { s with txFlags := writeUserFlag s.txFlags i v } .ok) ∨
    (s.fault = none ∧ userFlagInRange i = false ∧ t = s.refuse .flagIndex) := by
  rcases unlessFaulted_next h with h | ⟨hf, h⟩
  · exact .inl h
  · split at h
    · next hr => cases h; exact .inr (.inl ⟨hf, hr, rfl⟩)
    · next hr => cases h; exact .inr (.inr ⟨hf, by simpa using hr, rfl⟩)

theorem execSetc_next {v : Bool} {s t : State} (h : execSetc v s = .next t) :
    (s.fault ≠ none ∧ t = s.refuse .faulted) ∨
    (s.fault = none ∧ t = State.respond { s with txFlags := writeCrit s.txFlags v } .ok) := by
  rcases unlessFaulted_next h with h | ⟨hf, h⟩
  · exact .inl h
  · cases h; exact .inr ⟨hf, rfl⟩

theorem counterSelect_eq_none {sel : Byte} : counterSelect sel = none ↔ sel.toNat = 0 ∨ 7 < sel.toNat := by
  unfold counterSelect
  split <;> simp_all
  omega

/-- RDSTAT answers always, and changes nothing but the output (44_status.md R206). -/
theorem execRdstat_eq (sel : Byte) (s : State) :
    ∃ r, execRdstat sel s = .next (s.respond r) ∧
      ((sel = 0 ∧ r = .val (statusWord s)) ∨
       (7 < sel.toNat ∧ r = .err .select) ∨
       (∃ n, counterSelect sel = some n ∧ s.cfg.hasCounters = true ∧ r = .val (s.counters.get n)) ∨
       (∃ n, counterSelect sel = some n ∧ s.cfg.hasCounters = false ∧ r = .err .noCounters)) := by
  unfold execRdstat
  by_cases h0 : sel = 0
  · exact ⟨_, by rw [if_pos h0], .inl ⟨h0, rfl⟩⟩
  · rw [if_neg h0]
    cases hs : counterSelect sel with
    | none =>
      have hne : sel.toNat ≠ 0 := fun h => h0 (BitVec.eq_of_toNat_eq (by simpa using h))
      exact ⟨_, rfl, .inr (.inl ⟨(counterSelect_eq_none.1 hs).resolve_left hne, rfl⟩)⟩
    | some n =>
      cases hc : s.cfg.hasCounters with
      | true => exact ⟨_, by simp, .inr (.inr (.inl ⟨n, rfl, rfl, rfl⟩))⟩
      | false => exact ⟨_, by simp [State.refuse], .inr (.inr (.inr ⟨n, rfl, rfl, rfl⟩))⟩

/-! ## The step -/

theorem step_nil {s : State} (h : s.inputs = []) : step s = .next s := by
  simp [step, takeInput, h]

theorem step_cons {s : State} {i : Input} {rest : List Input} (h : s.inputs = i :: rest) :
    step s = runInput i { s with inputs := rest } := by
  simp [step, takeInput, h]

theorem step_reset {s : State} {rest : List Input} (h : s.inputs = .reset :: rest) :
    step s = .next (State.applyReset { s with inputs := rest }) :=
  step_cons h

theorem step_command {s : State} {c : Command} {rest : List Input} (h : s.inputs = .command c :: rest) :
    step s = runCommand c { s with inputs := rest } :=
  step_cons h

theorem runCommand_ok {c : Command} {i : Instr} {s : State} (h : decode c = .ok i) :
    runCommand c s = exec i s := by
  simp [runCommand, h]

theorem runCommand_error {c : Command} {e : DecodeError} {s : State} (h : decode c = .error e) :
    runCommand c s = .next (s.refuse .illegal) := by
  simp [runCommand, h]

/-- What a step can do: nothing, a reset, the refusal of an illegal word, or one instruction. -/
theorem step_next {s t : State} (h : step s = .next t) :
    (s.inputs = [] ∧ t = s) ∨
    (∃ rest, s.inputs = .reset :: rest ∧ t = State.applyReset { s with inputs := rest }) ∨
    (∃ c rest, s.inputs = .command c :: rest ∧
      ((∃ e, decode c = .error e ∧ t = State.refuse { s with inputs := rest } .illegal) ∨
       (∃ i, decode c = .ok i ∧ exec i { s with inputs := rest } = .next t))) := by
  cases hi : s.inputs with
  | nil => rw [step_nil hi] at h; cases h; exact .inl ⟨rfl, rfl⟩
  | cons i rest =>
    cases i with
    | reset => rw [step_reset hi] at h; cases h; exact .inr (.inl ⟨rest, rfl, rfl⟩)
    | command c =>
      rw [step_command hi] at h
      refine .inr (.inr ⟨c, rest, rfl, ?_⟩)
      cases hd : decode c with
      | error e => rw [runCommand_error hd] at h; cases h; exact .inl ⟨e, rfl, rfl⟩
      | ok i => rw [runCommand_ok hd] at h; exact .inr ⟨i, rfl, h⟩

end Sys2Proof.Machine
end

