-- ==== Sys2Proof/Laws/PerInstr.lean ====
section
/-! SUPPORT. A law of every instruction as syntax, one lemma a constructor: the encoder's word has the fixed bits of the
instruction's row of spec/opcode_table.json (spec/30_encoding.md R82). -/

namespace Sys2Proof.Laws.FixedBits

open Sys2Proof

/-- The encoded word has the fixed bits of the row of the instruction's mnemonic, and there is such a row. -/
def Statement (i : Instr) : Prop :=
  ∃ r, opcodeTable.find? (fun r => r.mnemonic == i.mnemonic) = some r ∧ r.Matches (encode i).word

theorem rxb (b : Byte) (now : Nat) : Statement (.rxb b now) :=
  ⟨_, rfl, (by decide : ∀ b : Byte, packFields 1 false 0 b &&& 0xFF00 = 0x1000) b⟩

theorem poll (now : Nat) : Statement (.poll now) :=
  ⟨_, rfl, (by decide : packFields 2 false 0 0 &&& 0xFFFF = 0x2000)⟩

theorem hret : Statement .hret := ⟨_, rfl, by decide⟩

theorem reg (t : Byte) (h : HandlerId) : Statement (.reg t h) :=
  ⟨_, rfl, (by decide : ∀ t : Byte, packFields 4 false 0 t &&& 0xFF00 = 0x4000) t⟩

theorem send (t : Byte) (payload : Option (List Byte)) (len : Nat) : Statement (.send t payload len) :=
  ⟨_, rfl, (by decide : ∀ (v : Bool) (t : Byte), packFields 5 v 0 t &&& 0xF700 = 0x5000) payload.isSome t⟩

theorem setf (i : BitVec 3) (v : Bool) : Statement (.setf i v) :=
  ⟨_, rfl, (by decide : ∀ (i : BitVec 3) (v : Bool), packFields 6 v i 0 &&& 0xF0FF = 0x6000) i v⟩

theorem setc (v : Bool) : Statement (.setc v) :=
  ⟨_, rfl, (by decide : ∀ v : Bool, packFields 7 v 0 0 &&& 0xF7FF = 0x7000) v⟩

theorem rdstat (s : Byte) : Statement (.rdstat s) :=
  ⟨_, rfl, (by decide : ∀ s : Byte, packFields 8 false 0 s &&& 0xFF00 = 0x8000) s⟩

end Sys2Proof.Laws.FixedBits
end

