-- ==== Sys2Proof/Tests/Slice0.lean ====
section
/-! SUPPORT. The model's own tests. Expected values are those of spec/95_test_vectors.md (the vector is named in each test)
or of the table of spec/30_encoding.md R89. The witnesses at the end meet the hypotheses of the statements in
Sys2Proof/Certificates/Slice0/Obligations.lean. -/

namespace Sys2Proof.Tests

open Sys2Proof Sys2Proof.Machine Sys2Proof.Safety

/-! ## Helpers -/

/-- The outcome is a next state of which the test holds. -/
def ends (r : Result) (p : State → Bool) : Bool :=
  match r with
  | .next t => p t
  | .fault _ => false
  | .refused _ => false

/-- The one output that was given since reset. -/
def gave (t : State) (r : Response) (evs : List Event) : Bool := decide (t.outputs = [⟨r, evs⟩])

def hA : HandlerId := ⟨1⟩
def hB : HandlerId := ⟨2⟩

/-- TC, Accumulating the given bytes since the given time. -/
def accum (bytes : List Byte) (ts : Nat) : State :=
  { State.reset with
    phase := .accumulating, count := bytes.length, buf := bytes ++ List.replicate (13 - bytes.length) 0, startTs := ts }

/-- TC, Dispatching the given frame. -/
def dispatch (frame : List Byte) : State :=
  { State.reset with phase := .dispatching, count := 13, buf := frame }

/-- A state with handler hA for type k. -/
def withHandler (k : Nat) (s : State) : State := { s with handlers := s.handlers.set k (some hA) }

/-- A state to which one input is presented. -/
def given (i : Input) (s : State) : State := { s with inputs := [i] }

/-- Frame row 1 of 95_test_vectors.md section 2, but for its last byte. -/
def row1 : List Byte := [0xAA, 0x00, 0x00, 0xCC, 0xCC, 0xCC, 0xFF, 0xFF, 0xFF, 0xAA, 0xAA, 0x66]

/-- Frame row 4 but for its last byte. -/
def row4 : List Byte := [0xAA, 0x01, 0x00, 0x01, 0x02, 0x03, 0x00, 0x00, 0x00, 0x00, 0x00, 0xB1]

/-- Frame row 2 with type 0xFF (V-RX-9), but for its last byte. -/
def row2ff : List Byte := [0xAA, 0xFF, 0x00, 0x00, 0x00, 0x00, 0x00, 0x00, 0x00, 0x00, 0x00, 0xAA]

/-! ## Well-formed instructions: each check refuses an ill-formed one -/

theorem test_wf_refuses_rxb_clock : ¬ WellFormed Config.tc (.rxb 0xAA 0x100000000) := by decide
theorem test_wf_refuses_poll_clock : ¬ WellFormed Config.tc (.poll 0x100000000) := by decide
theorem test_wf_accepts_last_clock :
    WellFormed Config.tc (.rxb 0xAA 0xFFFFFFFF) ∧ WellFormed Config.tc (.poll 0xFFFFFFFF) := by decide

/-! ## Decoding: the words of R89, written out bit by bit from R82's patterns -/

theorem test_decode_rxb : decodeTableWord 16 0b0001000010101010 = some (.rxb 0xAA 0) := by decide
theorem test_decode_poll : decodeTableWord 16 0b0010000000000000 = some (.poll 0) := by decide
theorem test_decode_hret : decodeTableWord 16 0b0011000000000000 = some .hret := by decide
theorem test_decode_reg : decodeTableWord 16 0b0100000000000011 = some (.reg 3 ⟨0⟩) := by decide
theorem test_decode_send :
    decodeTableWord 16 0b0101100000000001 = some (.send 1 (some []) 0) ∧
    decodeTableWord 16 0b0101000000000100 = some (.send 4 none 0) := by decide
theorem test_decode_setf :
    decodeTableWord 16 0b0110101000000000 = some (.setf 2 true) ∧
    decodeTableWord 16 0b0110011100000000 = some (.setf 7 false) := by decide
theorem test_decode_setc :
    decodeTableWord 16 0b0111100000000000 = some (.setc true) ∧
    decodeTableWord 16 0b0111000000000000 = some (.setc false) := by decide
theorem test_decode_rdstat : decodeTableWord 16 0b1000000000000111 = some (.rdstat 7) := by decide

/-- V-E-1 to V-E-3, V-RX-16, V-POLL-10, V-D-11, V-TX-19 to V-TX-21, V-S-10. -/
theorem test_decode_refuses :
    decodeTableWord 16 0x0000 = none ∧ decodeTableWord 16 0x9000 = none ∧ decodeTableWord 16 0xF123 = none ∧
    decodeTableWord 16 0x18AA = none ∧ decodeTableWord 16 0x2001 = none ∧ decodeTableWord 16 0x4800 = none ∧
    decodeTableWord 16 0x5100 = none ∧ decodeTableWord 16 0x6201 = none ∧ decodeTableWord 16 0x7100 = none ∧
    decodeTableWord 16 0x8100 = none := by decide

theorem test_decode_names_the_reason :
    decode (Command.ofWord 0x9000) = .error (.reservedOpcode 9) ∧
    decode (Command.ofWord 0x18AA) = .error (.fixedZeroField 1) := by decide

/-- The words of programs P1 and P3 and of V-TX-12. -/
theorem test_encode :
    (encode (.reg 1 hA)).word = 0x4001 ∧ (encode (.send 1 (some [1, 2, 3]) 3)).word = 0x5801 ∧
    (encode (.rxb 0xAB 50)).word = 0x10AB ∧ (encode (.setf 4 true)).word = 0x6C00 ∧ (encode .hret).word = 0x3000 ∧
    (encode (.rdstat 4)).word = 0x8004 ∧ (encode (.poll 7)).word = 0x2000 ∧ (encode (.setc true)).word = 0x7800 := by
  decide

/-! ## The checksum: 95_test_vectors.md section 2 -/

theorem test_fletcher_check_values :
    checksumValue [0x61, 0x62, 0x63, 0x64, 0x65] = 0xC8F0 ∧
    checksumValue [0x61, 0x62, 0x63, 0x64, 0x65, 0x66] = 0x2057 ∧
    checksumValue [0x61, 0x62, 0x63, 0x64, 0x65, 0x66, 0x67, 0x68] = 0x0627 := by decide

theorem test_fletcher_corners :
    fletcher [] = (0, 0) ∧ fletcher [0xFF, 0xFF] = (0, 0) ∧ fletcher [0x01, 0x02] = (3, 4) ∧
    fletcher [0x02, 0x01] = (3, 5) := by decide

/-- Rows 1 and 4 verify, in wire order sum1 then sum2; row 1 with 0x23 for 0x22 does not. -/
theorem test_verify :
    verify 8 (row1 ++ [0x22]) = true ∧ verify 8 (row4 ++ [0x87]) = true ∧ verify 8 (row1 ++ [0x23]) = false := by
  decide

/-! ## One step of each instruction -/

/-- V-RX-8: a bad checksum shifts to the least later MARKER. -/
theorem test_rxb_shift :
    ends (exec (.rxb 0x23 10) (accum row1 10)) (fun t => decide (t.phase = .accumulating ∧ t.count = 4 ∧
      t.buf.take 4 = [0xAA, 0xAA, 0x66, 0x23] ∧ t.counters.checksum = 1 ∧ t.counters.resync = 1) &&
      gave t .ok [.drop .checksum (.shift 9)]) = true := by decide

/-- V-RX-9 (UNKNOWN_TYPE although the checksum passes). -/
theorem test_rxb_unknown_type :
    ends (exec (.rxb 0x55 0) (accum row2ff 0)) (fun t => decide (t.phase = .accumulating ∧ t.count = 2 ∧
      t.buf.take 2 = [0xAA, 0x55] ∧ t.counters.unkType = 1 ∧ t.counters.resync = 1) &&
      gave t .ok [.drop .unknownType (.shift 11)]) = true := by decide

/-- V-POLL-5 and V-POLL-3: exactly READ_TIMEOUT elapsed, across the wrap too, discards nothing. -/
theorem test_poll_keeps :
    ends (exec (.poll 0x54) (accum [0xAA] 0xFFFFFFF0)) (fun t => decide (t.count = 1) && gave t .ok []) = true ∧
    ends (exec (.poll 1100) (accum [0xAA, 3, 0, 0, 0, 0] 1000)) (fun t => decide (t.count = 6) && gave t .ok []) = true := by
  decide

/-- V-POLL-6 and V-POLL-8: one more discards; a clock that went back by 1 discards. -/
theorem test_poll_discards :
    ends (exec (.poll 0x55) (accum [0xAA] 0xFFFFFFF0)) (fun t => decide (t.phase = .idle ∧ t.count = 0 ∧
      t.counters.timeout = 1 ∧ t.counters.resync = 0) && gave t .ok [.timeout]) = true ∧
    ends (exec (.poll 999) (accum [0xAA, 3, 0, 0, 0, 0] 1000)) (fun t => gave t .ok [.timeout]) = true := by decide

/-- V-D-8. -/
theorem test_hret :
    ends (exec .hret (dispatch (row1 ++ [0x22]))) (fun t => decide (t.phase = .idle ∧ t.count = 0) && gave t .ok []) =
      true := by decide

/-- V-D-6. -/
theorem test_hret_refused : ends (exec .hret State.reset) (fun t => gave t (.err .notDispatching) []) = true := by decide

/-- V-D-4: replaced. -/
theorem test_reg :
    ends (exec (.reg 0 hB) (withHandler 0 State.reset))
      (fun t => decide (t.handlers = [some hB, none, none, none]) && gave t .ok []) = true := by decide

/-- V-D-2: TYPE_COUNT itself is out of range. -/
theorem test_reg_range :
    ends (exec (.reg 4 hA) State.reset)
      (fun t => decide (t.handlers = [none, none, none, none]) && gave t (.err .typeRange) []) = true := by decide

/-- V-TX-5 and V-TX-4: bytes past len are ignored, len is clamped to P. -/
theorem test_send :
    ends (exec (.send 0 (some [1, 2, 3, 4, 5, 6, 7, 8, 9, 10]) 3) State.reset) (fun t => gave t .ok
      [.tx [0xAA, 0, 0, 1, 2, 3, 0, 0, 0, 0, 0, 0xB0, 0x7D]]) = true ∧
    ends (exec (.send 0 (some [1, 2, 3, 4, 5, 6, 7, 8, 9, 10]) 20) State.reset) (fun t => gave t .ok
      [.tx [0xAA, 0, 0, 1, 2, 3, 4, 5, 6, 7, 8, 0xCE, 0xCD]]) = true := by decide

/-- V-TX-6 and V-E-9: a short payload, and the reentrancy test before it. -/
theorem test_send_faults :
    ends (exec (.send 0 (some [1, 2]) 5) State.reset) (fun t => decide (t.fault = some .payloadShort ∧
      t.counters.tx = 0) && gave t (.fault .payloadShort) []) = true ∧
    ends (exec (.send 0 (some [1]) 5) (dispatch (row1 ++ [0x22]))) (fun t => decide (t.fault = some .reentrant) &&
      gave t (.fault .reentrant) []) = true := by decide

/-- V-TX-10. -/
theorem test_setf :
    ends (exec (.setf 2 false) { State.reset with txFlags := 0x84 }) (fun t => decide (t.txFlags = 0x80) &&
      gave t .ok []) = true := by decide

/-- V-TX-13: the critical bit is reached only by SETC. -/
theorem test_setf_index :
    ends (exec (.setf 7 true) State.reset) (fun t => decide (t.txFlags = 0) && gave t (.err .flagIndex) []) = true := by
  decide

/-- V-TX-9 and V-TX-11. -/
theorem test_setc :
    ends (exec (.setc true) { State.reset with txFlags := 0x04 }) (fun t => decide (t.txFlags = 0x84)) = true ∧
    ends (exec (.setc false) { State.reset with txFlags := 0x80 }) (fun t => decide (t.txFlags = 0x00)) = true := by
  decide

/-- V-S-4: the status word, faulted. -/
theorem test_rdstat_status :
    ends (exec (.rdstat 0) { dispatch (row1 ++ [0x22]) with txFlags := 0x80, fault := some .reentrant })
      (fun t => gave t (.val 0x80000D06) []) = true := by decide

/-- V-S-8 and V-S-7. -/
theorem test_rdstat_refused :
    ends (exec (.rdstat 3) (State.resetWith { Config.tc with hasCounters := false })) (fun t => gave t (.err .noCounters) []) =
      true ∧
    ends (exec (.rdstat 8) State.reset) (fun t => gave t (.err .select) []) = true := by decide

/-! ## The command port -/

/-- V-E-4: an illegal word is refused before the fault check; V-E-6: a legal one after it. -/
theorem test_step_order :
    ends (step ({ State.reset with fault := some .reentrant }.withFetchWord 16 0x9000))
      (fun t => gave t (.err .illegal) []) = true ∧
    ends (step ({ State.reset with fault := some .reentrant }.withFetchWord 16 0x10AA))
      (fun t => gave t (.err .faulted) []) = true := by decide

/-- V-E-10. -/
theorem test_step_reset :
    ends (step (given .reset { dispatch (row1 ++ [0x22]) with fault := some .reentrant }))
      (fun t => decide (t = State.reset)) = true := by decide

/-! ## The assembler (R89 to R91) -/

/-- The names of the handlers of the test configuration. -/
def names : List Char → Option HandlerId
  | ['h', 'A'] => some hA
  | ['h', 'B'] => some hB
  | _ => none

theorem test_parse_send :
    parseLine names "SEND 0x1F, [1, 0x2, 3], 8".toList = some (.send 31 (some [1, 2, 3]) 8) ∧
    parseLine names "SEND 2, -, 0".toList = some (.send 2 none 0) := by decide
theorem test_parse_commands :
    parseLine names "RXB 0xAA @50".toList = some (.rxb 170 50) ∧ parseLine names "REG 1, hB".toList = some (.reg 1 hB) ∧
    parseLine names "SETF 2, 1".toList = some (.setf 2 1) ∧ parseLine names "HRET".toList = some .hret ∧
    parseLine names "POLL @0x54".toList = some (.poll 84) ∧ parseLine names "UPDATE @7, []".toList = some (.update 7 []) :=
  by decide
theorem test_assembly_errors :
    assemble (.rxb 256 0) = none ∧ assemble (.setf 8 0) = none ∧ assemble (.setc 2) = none ∧
    assemble (.rdstat 255) = some (.command (.rdstat 255)) := by decide

/-! ## Witnesses: concrete states and operands that meet the hypotheses of each statement -/

/-- The invariant from its parts, each of which is decided on a concrete state. -/
theorem inv_intro {s : State}
    (h : (s.cfg.Legal ∧ s.buf.length = s.cfg.frameSize ∧ s.handlers.length = s.cfg.typeCount ∧
      s.startTs < 2 ^ s.cfg.clockWidth) ∧ IdleIffEmpty s ∧ PartialFrame s ∧ HeldFrame s ∧ ReservedZero s) :
    Safety.Inv s :=
  ⟨⟨h.1.1, h.1.2.1, h.1.2.2.1, h.1.2.2.2⟩, h.2.1, h.2.2.1, h.2.2.2.1, h.2.2.2.2⟩

/-- The smallest legal parameters, and no counters. -/
def smallest : Config :=
  { marker := 0xAA, payloadCap := 1, typeCount := 1, readTimeout := 0, clockWidth := 0, hasCounters := false }

/-- The largest legal payload capacity and type count. -/
def largest : Config := { Config.tc with payloadCap := 250, typeCount := 256 }

/-- A state without counters. -/
def bare : State := State.resetWith { Config.tc with hasCounters := false }

/-- A state that is faulted while a handler runs. -/
def faulted : State := { dispatch (row1 ++ [0x22]) with fault := some .reentrant }

theorem inv_reset : Safety.Inv State.reset := inv_intro (by decide)
theorem inv_accum : Safety.Inv (accum row1 10) := inv_intro (by decide)
theorem inv_dispatch : Safety.Inv (dispatch (row1 ++ [0x22])) := inv_intro (by decide)

theorem witness_ResetLeavesSpecValues : (given .reset faulted).inputs = [.reset] := by decide

theorem witness_InvHoldsAtReset : smallest.Legal ∧ largest.Legal := by decide

/-- A step from Idle, one from Accumulating that completes a frame, one from Dispatching. -/
theorem witness_EveryStepKeepsInv :
    (Safety.Inv (given (.command (encode (.rxb 0xAA 7))) State.reset) ∧
      ends (step (given (.command (encode (.rxb 0xAA 7))) State.reset)) (fun _ => true) = true) ∧
    (Safety.Inv (given (.command (encode (.rxb 0x22 7))) (withHandler 0 (accum row1 10))) ∧
      ends (step (given (.command (encode (.rxb 0x22 7))) (withHandler 0 (accum row1 10))))
        (fun t => decide (t.phase = .dispatching)) = true) ∧
    (Safety.Inv (given (.command (encode .hret)) (dispatch (row1 ++ [0x22]))) ∧
      ends (step (given (.command (encode .hret)) (dispatch (row1 ++ [0x22])))) (fun t => decide (t.phase = .idle)) =
        true) :=
  ⟨⟨inv_intro (by decide), by decide⟩, ⟨inv_intro (by decide), by decide⟩, inv_intro (by decide), by decide⟩

theorem witness_NoStepStopsFromInv : Safety.Inv (given (.command (encode (.rxb 0x22 7))) (accum row1 10)) :=
  inv_intro (by decide)

theorem witness_FaultIsStickyUntilReset :
    faulted.fault ≠ none ∧ (∀ sel, Instr.hret ≠ .rdstat sel) ∧ ((1 : Byte) ≠ 0 ∧ (0xFF : Byte) ≠ 0) ∧
    faulted.fault = some .reentrant ∧ { State.reset with fault := some .payloadShort }.fault = some .payloadShort ∧
    ends (step (given .reset faulted)) (fun t => decide (t.fault ≠ faulted.fault)) = true :=
  ⟨by decide, fun _ h => (by cases h), by decide, by decide, by decide, by decide⟩

/-- A change of each element, by a command that may change it. -/
theorem witness_EachElementIsWrittenOnlyByItsCommands :
    ends (exec (.rxb 0xAA 7) State.reset)
      (fun t => decide (t.phase ≠ State.reset.phase ∧ t.buf ≠ State.reset.buf ∧ t.startTs ≠ State.reset.startTs)) = true ∧
    ends (exec (.reg 3 hA) State.reset) (fun t => decide (t.handlers ≠ State.reset.handlers)) = true ∧
    ends (exec (.setc true) State.reset) (fun t => decide (t.txFlags ≠ State.reset.txFlags)) = true ∧
    ends (exec (.send 0 (some []) 1) State.reset) (fun t => decide (t.fault ≠ State.reset.fault)) = true ∧
    ends (exec (.send 0 none 0) State.reset) (fun t => decide (t.counters ≠ State.reset.counters)) = true := by decide

/-- A refusal, a fault, a value, and an RXB. -/
theorem witness_EveryCommandGivesOneResponse :
    ends (step (given (.command (Command.ofWord 0x9000)) State.reset)) (fun t => gave t (.err .illegal) []) = true ∧
    ends (step (given (.command (encode (.send 0 (some []) 1))) State.reset)) (fun t => gave t (.fault .payloadShort) []) =
      true ∧
    ends (step (given (.command (encode (.rdstat 0))) State.reset)) (fun t => gave t (.val 0) []) = true ∧
    (ends (step (given (.command (encode (.rxb 0xAA 0))) State.reset)) (fun t => gave t .ok []) = true ∧
      (encode (.rxb 0xAA 0)).word.toNat / 4096 = 1 ∧ (encode (.poll 0)).word.toNat / 4096 = 2) := by decide

theorem witness_CountersCountEvents :
    (bare.cfg.hasCounters = false ∧ ends (step (given (.command (encode (.send 0 none 0))) bare)) (fun _ => true) = true) ∧
    (State.reset.cfg.hasCounters = true ∧
      ends (step (given (.command (encode (.rxb 0x23 10))) (accum row1 10))) (fun t => decide (t.counters.checksum = 1)) =
        true) := by decide

/-- Two states that differ in a stale byte and in the timestamp of no frame. -/
theorem witness_StaleStateIsNeverObserved :
    Safety.Inv (given (.command (encode (.rxb 0xAA 7))) State.reset) ∧
    Safety.Inv { given (.command (encode (.rxb 0xAA 7))) State.reset with buf := List.replicate 13 0xAA, startTs := 5 } ∧
    SameVisible (given (.command (encode (.rxb 0xAA 7))) State.reset)
      { given (.command (encode (.rxb 0xAA 7))) State.reset with buf := List.replicate 13 0xAA, startTs := 5 } ∧
    ends (step (given (.command (encode (.rxb 0xAA 7))) State.reset)) (fun _ => true) = true :=
  ⟨inv_intro (by decide), inv_intro (by decide),
    ⟨rfl, rfl, rfl, fun _ hk => absurd hk (Nat.not_lt_zero _), fun h => (by cases h), rfl, rfl, rfl, rfl, rfl, rfl⟩,
    by decide⟩

theorem witness_AtMostOneHandlerRuns :
    ends (step (given (.command (encode (.rxb 0x22 7))) (withHandler 0 (accum row1 10))))
      (fun t => gave t .ok [.deliver hA (row1 ++ [0x22])]) = true ∧
    ((dispatch (row1 ++ [0x22])).fault = none ∧ (dispatch (row1 ++ [0x22])).phase = .dispatching) ∧
    ((dispatch (row1 ++ [0x22])).phase = .dispatching ∧
      ends (exec (.reg 3 hB) (dispatch (row1 ++ [0x22]))) (fun t => gave t .ok []) = true) := by decide

theorem witness_StepRunsTheDecodedInstruction :
    ((given (.command (encode (.setc true))) faulted).inputs = [.command (encode (.setc true))] ∧
      decode (encode (.setc true)) = .ok (.setc true)) ∧ State.reset.inputs = [] := ⟨⟨rfl, rfl⟩, rfl⟩

/-- Each way to be illegal, in a faulted state. -/
theorem witness_IllegalWordsChangeNothing :
    ∀ w ∈ ([0x0000, 0x0FFF, 0x9000, 0xFFFF, 0x1800, 0x8100, 0x5100, 0x7001, 0x20FF] : List CmdWord),
      IllegalWord w ∧ (given (.command (Command.ofWord w)) faulted).inputs = [.command (Command.ofWord w)] := by
  simp [IllegalWord, given, Command.ofWord]

theorem witness_EveryWordMatchesOneRowOrIsIllegal :
    decode (Command.ofWord 0x6F00) = .ok (.setf 7 true) ∧ decode (Command.ofWord 0x0000) = .error (.reservedOpcode 0) :=
  by decide

/-- Each row's word at the ends of its fields' ranges. -/
theorem witness_EachRowTakesItsOperandsOnly :
    (0x1000#16).toNat = 0x1000 + (0x00 : Byte).toNat ∧ (0x10FF#16).toNat = 0x1000 + (0xFF : Byte).toNat ∧
    (0x2000#16).toNat = 0x2000 ∧ (0x3000#16).toNat = 0x3000 ∧ (0x40FF#16).toNat = 0x4000 + (0xFF : Byte).toNat ∧
    (0x58FF#16).toNat = 0x5800 + (0xFF : Byte).toNat ∧ (0x50FF#16).toNat = 0x5000 + (0xFF : Byte).toNat ∧
    (0x6F00#16).toNat = 0x6000 + (7 : BitVec 3).toNat * 0x100 + true.toNat * 0x800 ∧
    (0x7800#16).toNat = 0x7000 + true.toNat * 0x800 ∧ (0x80FF#16).toNat = 0x8000 + (0xFF : Byte).toNat := by decide

theorem witness_EncodeOfDecodeIsTheWord : decode (Command.ofWord 0x58FF) = .ok (.send 0xFF (some []) 0) := by decide

/-- The last number that fits each field, and the first that does not. -/
theorem witness_AssembledLinesHaveTheTablesWords :
    255 < 256 ∧ 256 ≤ 256 ∧ (7 < 8 ∧ 1 < 2) ∧ (8 ≤ 8 ∨ 2 ≤ 0) ∧ (8 ≤ 7 ∨ 2 ≤ 2) := by decide

theorem witness_StartTimestampIsWrittenOnlyFromIdle :
    (Safety.Inv State.reset ∧ State.reset.fault = none ∧ State.reset.phase = .idle ∧ (0xAA : Byte) = State.reset.cfg.marker) ∧
    ends (exec (.rxb 0x00 7) State.reset) (fun t => decide (t.startTs ≠ State.reset.startTs)) = true ∧
    (Safety.Inv (accum row1 10) ∧
      ends (exec (.rxb 0x23 99) (accum row1 10)) (fun t => gave t .ok [.drop .checksum (.shift 9)]) = true) :=
  ⟨⟨inv_reset, rfl, rfl, rfl⟩, by decide, inv_accum, by decide⟩

theorem witness_RxbOfMarkerInIdleStartsAFrame :
    Safety.Inv State.reset ∧ State.reset.fault = none ∧ State.reset.phase = .idle := ⟨inv_reset, rfl, rfl⟩

theorem witness_RxbOfAnotherByteInIdleIsDropped :
    Safety.Inv State.reset ∧ State.reset.fault = none ∧ State.reset.phase = .idle ∧ (0x55 : Byte) ≠ State.reset.cfg.marker :=
  ⟨inv_reset, rfl, rfl, by decide⟩

/-- A Drop with cause FRAMING, one with another cause and a shift, and a byte that is not MARKER in Idle. -/
theorem witness_DropsHappenOnlyWhereTheRulesSay :
    (Safety.Inv State.reset ∧
      ends (exec (.rxb 0x55 0) State.reset) (fun t => gave t .ok [.drop .framing .empty]) = true) ∧
    (Safety.Inv (accum row1 10) ∧
      ends (exec (.rxb 0x23 0) (accum row1 10)) (fun t => gave t .ok [.drop .checksum (.shift 9)]) = true) ∧
    (Safety.Inv State.reset ∧ State.reset.fault = none ∧ State.reset.phase = .idle ∧
      (0x55 : Byte) ≠ State.reset.cfg.marker) :=
  ⟨⟨inv_reset, by decide⟩, ⟨inv_accum, by decide⟩, inv_reset, by decide⟩

/-- The first and the last byte that only append. -/
theorem witness_RxbInsideAFrameAppends :
    (Safety.Inv (accum [0xAA] 3) ∧ (accum [0xAA] 3).fault = none ∧ (accum [0xAA] 3).phase = .accumulating ∧
      (accum [0xAA] 3).count + 1 < (accum [0xAA] 3).cfg.frameSize) ∧
    (Safety.Inv (accum (row1.take 11) 3) ∧ (accum (row1.take 11) 3).count + 1 < (accum (row1.take 11) 3).cfg.frameSize) :=
  ⟨⟨inv_intro (by decide), by decide⟩, inv_intro (by decide), by decide⟩

/-- A frame with a later MARKER (V-RX-8) and one without (V-RX-11). -/
theorem witness_RxbOfABadChecksumResynchronizes :
    (Safety.Inv (accum row1 10) ∧ (accum row1 10).fault = none ∧ (accum row1 10).phase = .accumulating ∧
      (accum row1 10).count + 1 = (accum row1 10).cfg.frameSize ∧ verify 8 (completedBy (accum row1 10) 0x23) = false ∧
      (completedBy (accum row1 10) 0x23)[9]? = some 0xAA) ∧
    (Safety.Inv (accum row4 10) ∧ verify 8 (completedBy (accum row4 10) 0xFF) = false ∧
      ∀ k, 1 ≤ k → k < 13 → (completedBy (accum row4 10) 0xFF)[k]? ≠ some 0xAA) :=
  ⟨⟨inv_accum, by decide⟩, inv_intro (by decide), by decide, by decide⟩

/-- V-RX-9. -/
theorem witness_RxbOfAnUnknownTypeResynchronizes :
    Safety.Inv (accum row2ff 0) ∧ (accum row2ff 0).fault = none ∧ (accum row2ff 0).phase = .accumulating ∧
    (accum row2ff 0).count + 1 = (accum row2ff 0).cfg.frameSize ∧ verify 8 (completedBy (accum row2ff 0) 0x55) = true ∧
    (completedBy (accum row2ff 0) 0x55)[1]? = some 0xFF ∧ (accum row2ff 0).cfg.typeCount ≤ (0xFF : Byte).toNat :=
  ⟨inv_intro (by decide), by decide⟩

theorem witness_RxbOfAValidFrameDelivers :
    Safety.Inv (withHandler 0 (accum row1 10)) ∧ (withHandler 0 (accum row1 10)).fault = none ∧
    (withHandler 0 (accum row1 10)).phase = .accumulating ∧
    (withHandler 0 (accum row1 10)).count + 1 = (withHandler 0 (accum row1 10)).cfg.frameSize ∧
    verify 8 (completedBy (withHandler 0 (accum row1 10)) 0x22) = true ∧
    (completedBy (withHandler 0 (accum row1 10)) 0x22)[1]? = some 0 ∧
    (0 : Byte).toNat < (withHandler 0 (accum row1 10)).cfg.typeCount ∧
    (withHandler 0 (accum row1 10)).handlers[(0 : Byte).toNat]? = some (some hA) := ⟨inv_intro (by decide), by decide⟩

theorem witness_RxbOfAnUnregisteredTypeDropsTheFrame :
    Safety.Inv (accum row1 10) ∧ (accum row1 10).fault = none ∧ (accum row1 10).phase = .accumulating ∧
    (accum row1 10).count + 1 = (accum row1 10).cfg.frameSize ∧ verify 8 (completedBy (accum row1 10) 0x22) = true ∧
    (completedBy (accum row1 10) 0x22)[1]? = some 0 ∧ (0 : Byte).toNat < (accum row1 10).cfg.typeCount ∧
    (accum row1 10).handlers[(0 : Byte).toNat]? = some none := ⟨inv_accum, by decide⟩

theorem witness_ReceiveErrorsAreRecoveredSilently :
    Safety.Inv (accum row1 10) ∧ (accum row1 10).fault = none ∧ (accum row1 10).phase ≠ .dispatching ∧
    (∃ b now, Instr.rxb 0x23 5 = .rxb b now) := ⟨inv_accum, by decide, by decide, _, _, rfl⟩

/-- An RXB outside Idle (V-POLL-7), and a Timeout event. -/
theorem witness_RxbNeverTimesOut :
    ((accum row1 10).phase ≠ .idle ∧ ends (exec (.rxb 0x23 5000) (accum row1 10)) (fun t => decide (t.count = 4)) = true) ∧
    ends (exec (.poll 0x55) (accum [0xAA] 0xFFFFFFF0)) (fun t => gave t .ok [.timeout]) = true := by decide

theorem witness_ShiftMovesBytesAsTheLoopDoes :
    9 ≤ (accum row1 10).count ∧ (accum row1 10).count ≤ (accum row1 10).buf.length ∧
    2 < (accum row1 10).count - 9 ∧ (accum row1 10).count - 9 ≤ 3 := by decide

/-- One more than READ_TIMEOUT, across the wrap (V-POLL-6). -/
theorem witness_PollDiscardsAStalledFrame :
    (accum [0xAA] 0xFFFFFFF0).fault = none ∧ (accum [0xAA] 0xFFFFFFF0).phase = .accumulating ∧
    0xFFFFFFF0 < 2 ^ Config.tc.clockWidth ∧
    Config.tc.readTimeout < (0x55 + (2 ^ Config.tc.clockWidth - 0xFFFFFFF0)) % 2 ^ Config.tc.clockWidth := by decide

/-- Idle, and exactly READ_TIMEOUT (V-POLL-5). -/
theorem witness_PollOtherwiseChangesNothing :
    (State.reset.fault = none ∧ State.reset.startTs < 2 ^ State.reset.cfg.clockWidth ∧ State.reset.phase = .idle) ∧
    ((accum [0xAA] 0xFFFFFFF0).fault = none ∧ (accum [0xAA] 0xFFFFFFF0).phase = .accumulating ∧
      (0x54 + (2 ^ Config.tc.clockWidth - 0xFFFFFFF0)) % 2 ^ Config.tc.clockWidth ≤ Config.tc.readTimeout) := by decide

theorem witness_ElapsedTimeIsExactAcrossTheWrap : 0xFFFFFFFF < 2 ^ Config.tc.clockWidth := by decide

theorem witness_ReentrantCommandsRaiseTheFault :
    (dispatch (row1 ++ [0x22])).fault = none ∧ (dispatch (row1 ++ [0x22])).phase = .dispatching ∧
    (∃ b now, Instr.rxb 0 8 = .rxb b now) ∧ (∃ now, Instr.poll 0 = .poll now) ∧
    (∃ ty p len, Instr.send 0 (some [1]) 5 = .send ty p len) :=
  ⟨rfl, rfl, ⟨_, _, rfl⟩, ⟨_, rfl⟩, _, _, _, rfl⟩

/-- One byte too few, by the length operand and by the capacity. -/
theorem witness_ShortPayloadRaisesTheFault :
    State.reset.fault = none ∧ State.reset.phase ≠ .dispatching ∧
    ([1, 2] : List Byte).length < 3 ∧ ([1, 2, 3, 4, 5, 6, 7] : List Byte).length < State.reset.cfg.payloadCap := by decide

theorem witness_HretRestoresIdleAndNothingElse :
    ((dispatch (row1 ++ [0x22])).fault = none ∧ (dispatch (row1 ++ [0x22])).phase = .dispatching) ∧
    (State.reset.fault = none ∧ State.reset.phase ≠ .dispatching) := by decide

/-- The last type in range and the first out of it. -/
theorem witness_RegWritesOneHandlerEntry :
    State.reset.fault = none ∧ State.reset.handlers.length = State.reset.cfg.typeCount ∧
    (3 : Byte).toNat < State.reset.cfg.typeCount ∧ State.reset.cfg.typeCount ≤ (4 : Byte).toNat := by decide

/-- A payload of exactly min(len, P) bytes; and one that is absent. -/
theorem witness_SendTransmitsOneFrame :
    State.reset.fault = none ∧ State.reset.phase ≠ .dispatching ∧
    (∀ p, some ([1, 2, 3] : List Byte) = some p → min 3 State.reset.cfg.payloadCap ≤ p.length) ∧
    (∀ p, (none : Option (List Byte)) = some p → min 3 State.reset.cfg.payloadCap ≤ p.length) ∧
    (2 < State.reset.cfg.payloadCap ∧ 2 < 3) ∧ (3 < State.reset.cfg.payloadCap ∧ 3 ≤ 3) :=
  ⟨by decide, by decide, fun p h => (by cases h; decide), fun p h => (by cases h), by decide, by decide⟩

theorem witness_EverySentFramePassesTheReceiversChecks :
    ends (exec (.send 4 none 0) State.reset)
      (fun t => gave t .ok [.tx [0xAA, 4, 0, 0, 0, 0, 0, 0, 0, 0, 0, 0xAE, 0x7D]]) = true := by decide

theorem witness_ChecksumByteFFNeverPasses :
    (payloadTooShort Config.tc (some [1, 2, 3]) 3 = false ∧
      (buildFrame Config.tc 0 1 (some [1, 2, 3]) 3)[8 + 3]? = some 0xB1 ∧
      (buildFrame Config.tc 0 1 (some [1, 2, 3]) 3)[8 + 4]? = some 0x87) ∧
    (row1 ++ [0xFF])[8 + 4]? = some 0xFF ∧ (row1.take 11 ++ [0xFF, 0x22])[8 + 3]? = some 0xFF := by decide

/-- The last index in range and the first out of it. -/
theorem witness_SetfWritesOneUserFlag :
    State.reset.fault = none ∧ (3 : BitVec 3).toNat ≤ 3 ∧ 3 < (4 : BitVec 3).toNat := by decide

theorem witness_SetcWritesTheCriticalBit : State.reset.fault = none := by decide

theorem witness_StatusWordHasTheSpecsLayout : (dispatch (row1 ++ [0x22])).count < 2 ^ 16 := by decide

theorem witness_RdstatReadsTheSelectedCounter :
    State.reset.cfg.hasCounters = true ∧ bare.cfg.hasCounters = false ∧
    (1 ≤ (1 : Byte).toNat ∧ (7 : Byte).toNat ≤ 7) ∧ 7 < (8 : Byte).toNat := by decide

theorem witness_FletcherCannotTellZeroFromFF : row1[1]? = some 0x00 := by decide

theorem witness_FletcherSeesASwap :
    0 < 1 ∧ ([0x01, 0x02] : List Byte)[0]? = some 0x01 ∧ ([0x01, 0x02] : List Byte)[1]? = some 0x02 := by decide

theorem witness_VerifyComparesBothBytes :
    3 ≤ (row1.take 11).length ∧ fletcher (row1.take 11) = ((0x66 : Byte).toNat, (0x22 : Byte).toNat) := by decide

theorem witness_SentFrameIsDeliveredExactlyOnce :
    Safety.Inv (withHandler 3 State.reset) ∧ (withHandler 3 State.reset).fault = none ∧
    (withHandler 3 State.reset).phase = .idle ∧ (3 : Byte).toNat < (withHandler 3 State.reset).cfg.typeCount ∧
    (withHandler 3 State.reset).handlers[(3 : Byte).toNat]? = some (some hA) ∧
    payloadTooShort Config.tc none 0 = false := ⟨inv_intro (by decide), by decide⟩

/-- Program P2: garbage with two MARKER lookalikes before frame row 6. -/
theorem witness_AFrameAfterGarbageIsDeliveredOnce :
    Safety.Inv (withHandler 2 State.reset) ∧ (withHandler 2 State.reset).fault = none ∧
    (withHandler 2 State.reset).phase = .idle ∧ (2 : Byte).toNat < (withHandler 2 State.reset).cfg.typeCount ∧
    (withHandler 2 State.reset).handlers[(2 : Byte).toNat]? = some (some hA) ∧
    payloadTooShort Config.tc (some [0x10, 0x20, 0x30, 0x40, 0x50, 0x60, 0x70, 0x80]) 8 = false ∧
    (∀ p, p < ([0x13, 0xAA, 0x55, 0xAA, 0x07] : List Byte).length →
      ([0x13, 0xAA, 0x55, 0xAA, 0x07] : List Byte)[p]? = some Config.tc.marker →
      verify Config.tc.payloadCap (windowAt Config.tc ([0x13, 0xAA, 0x55, 0xAA, 0x07] ++
        buildFrame Config.tc 0 2 (some [0x10, 0x20, 0x30, 0x40, 0x50, 0x60, 0x70, 0x80]) 8) p) ≠ true) :=
  ⟨inv_intro (by decide), by decide, by decide, by decide, by decide, by decide, by decide⟩

theorem witness_UpdateMayBeCutAnywhere :
    ([0xAA] : List Byte) ≠ [] ∧ ([0x01] : List Byte) ≠ [] ∧
    ends (update (fun _ _ => []) 7 [0xAA] State.reset) (fun t => decide (t.count = 1)) = true := by decide

end Sys2Proof.Tests
end

section
/-! Renaming every handler identity commutes with each operation of the model, hence with a step (spec/00_scope.md R15).
The simp lemmas move the renaming of a next state inwards, on to the state that the operation starts from; where an
operation may have no result or may stop (append, setHandler, complete, afterAppend), they move it outwards, on to the outcome. -/

namespace Sys2Proof.Safety

open Sys2Proof Sys2Proof.Machine

variable (ρ : HandlerId → HandlerId)

/-! ## What renaming does to each field, event and outcome -/

@[simp] theorem renameState_cfg (s : State) : (renameState ρ s).cfg = s.cfg := rfl
@[simp] theorem renameState_phase (s : State) : (renameState ρ s).phase = s.phase := rfl
@[simp] theorem renameState_count (s : State) : (renameState ρ s).count = s.count := rfl
@[simp] theorem renameState_buf (s : State) : (renameState ρ s).buf = s.buf := rfl
@[simp] theorem renameState_startTs (s : State) : (renameState ρ s).startTs = s.startTs := rfl
@[simp] theorem renameState_handlers (s : State) :
    (renameState ρ s).handlers = s.handlers.map (Option.map ρ) := rfl
@[simp] theorem renameState_txFlags (s : State) : (renameState ρ s).txFlags = s.txFlags := rfl
@[simp] theorem renameState_fault (s : State) : (renameState ρ s).fault = s.fault := rfl
@[simp] theorem renameState_counters (s : State) : (renameState ρ s).counters = s.counters := rfl
@[simp] theorem renameState_inputs (s : State) :
    (renameState ρ s).inputs = s.inputs.map (renameInput ρ) := rfl

@[simp] theorem renameEvent_tx (f : List Byte) : renameEvent ρ (.tx f) = .tx f := rfl
@[simp] theorem renameEvent_deliver (h : HandlerId) (f : List Byte) :
    renameEvent ρ (.deliver h f) = .deliver (ρ h) f := rfl
@[simp] theorem renameEvent_drop (c : DropCause) (r : DropResult) :
    renameEvent ρ (.drop c r) = .drop c r := rfl
@[simp] theorem renameEvent_unregistered (t : Byte) :
    renameEvent ρ (.unregistered t) = .unregistered t := rfl
@[simp] theorem renameEvent_timeout : renameEvent ρ .timeout = .timeout := rfl

@[simp] theorem renameInput_reset : renameInput ρ .reset = .reset := rfl
@[simp] theorem renameInput_command (c : Command) :
    renameInput ρ (.command c) = .command { c with handler := ρ c.handler } := rfl

@[simp] theorem renameResult_next (s : State) : renameResult ρ (.next s) = .next (renameState ρ s) := rfl
@[simp] theorem renameResult_fault (r : Fault) : renameResult ρ (.fault r) = .fault r := rfl

/-! ## What the framer reads of a state has no handler identity in it -/

@[simp] theorem frame_renameState (s : State) : (renameState ρ s).frame = s.frame := rfl
@[simp] theorem timedOut_renameState (s : State) (now : Nat) :
    (renameState ρ s).timedOut now = s.timedOut now := rfl
@[simp] theorem statusWord_renameState (s : State) : statusWord (renameState ρ s) = statusWord s := rfl

/-! ## Renaming commutes with each shared operation -/

@[simp] theorem renameState_respond (s : State) (r : Response) (es : List Event) :
    renameState ρ (s.respond r es) = (renameState ρ s).respond r (es.map (renameEvent ρ)) := by
  simp [renameState, State.respond]

@[simp] theorem renameState_refuse (s : State) (e : ErrCode) :
    renameState ρ (s.refuse e) = (renameState ρ s).refuse e :=
  renameState_respond ρ s _ _

@[simp] theorem renameState_raise (s : State) (c : FaultCode) :
    renameState ρ (s.raise c) = (renameState ρ s).raise c :=
  renameState_respond ρ { s with fault := some c } _ _

@[simp] theorem renameState_bump (s : State) (n : CounterName) :
    renameState ρ (s.bump n) = (renameState ρ s).bump n :=
  apply_ite (renameState ρ) _ _ _

@[simp] theorem renameState_toIdle (s : State) : renameState ρ s.toIdle = (renameState ρ s).toIdle := rfl

@[simp] theorem renameState_shiftBuf (s : State) (i : Nat) :
    renameState ρ (s.shiftBuf i) = (renameState ρ s).shiftBuf i := rfl

@[simp] theorem renameState_startFrame (s : State) (now : Nat) :
    renameState ρ (s.startFrame now) = (renameState ρ s).startFrame now :=
  apply_ite (renameState ρ) _ _ _

@[simp] theorem append_renameState (s : State) (b : Byte) :
    (renameState ρ s).append b = (s.append b).map (renameState ρ) := by
  by_cases hl : s.count < s.buf.length
  · rw [State.append_of_lt hl, State.append_of_lt (s := renameState ρ s) hl]
    rfl
  · have hl : s.buf.length ≤ s.count := by omega
    rw [State.append_eq_none.2 hl, State.append_eq_none (s := renameState ρ s).2 hl]
    rfl

@[simp] theorem setHandler_renameState (s : State) (t : Byte) (h : HandlerId) :
    (renameState ρ s).setHandler t (ρ h) = (s.setHandler t h).map (renameState ρ) := by
  by_cases hl : t.toNat < s.handlers.length
  · simp [State.setHandler, hl, renameState, List.map_set]
  · simp [State.setHandler, hl]

@[simp] theorem renameState_resync (s : State) (cause : DropCause) :
    renameState ρ (s.resync cause) = (renameState ρ s).resync cause := by
  cases h : s.nextMarker with
  | some i => simp [State.resync_of_some h, State.resync_of_some (s := renameState ρ s) h]
  | none => simp [State.resync_of_none h, State.resync_of_none (s := renameState ρ s) h]

@[simp] theorem renameState_deliver (s : State) (h : HandlerId) :
    renameState ρ (s.deliver h) = (renameState ρ s).deliver (ρ h) := by
  rw [State.deliver, State.deliver, renameState_respond, ← renameState_bump]
  rfl

@[simp] theorem renameState_dropUnregistered (s : State) (t : Byte) :
    renameState ρ (s.dropUnregistered t) = (renameState ρ s).dropUnregistered t := by
  simp [State.dropUnregistered]

@[simp] theorem renameState_endDispatch (s : State) :
    renameState ρ s.endDispatch = (renameState ρ s).endDispatch := by
  simp [State.endDispatch]

@[simp] theorem renameState_discardPartial (s : State) :
    renameState ρ s.discardPartial = (renameState ρ s).discardPartial := by
  simp [State.discardPartial]

@[simp] theorem renameState_transmit (s : State) (f : List Byte) :
    renameState ρ (s.transmit f) = (renameState ρ s).transmit f := by
  simp [State.transmit]

/-- The table that reset leaves is empty, so it has nothing to rename. -/
@[simp] theorem renameState_applyReset (s : State) :
    renameState ρ s.applyReset = (renameState ρ s).applyReset := by
  simp [renameState, State.applyReset, State.resetWith]

/-- The one lookup of the handler table: the identity found is the renamed one, and whether there is one is kept. -/
@[simp] theorem complete_renameState (s : State) (t : Byte) :
    (renameState ρ s).complete t = renameResult ρ (s.complete t) := by
  unfold State.complete
  rw [renameState_handlers, List.getElem?_map]
  rcases s.handlers[t.toNat]? with _ | _ | h
  · rfl
  · simp
  · simp

@[simp] theorem afterAppend_renameState (s : State) :
    (renameState ρ s).afterAppend = renameResult ρ s.afterAppend := by
  cases hm : s.markerOk with
  | false =>
    rw [State.afterAppend_of_bad_marker hm, State.afterAppend_of_bad_marker (s := renameState ρ s) hm]
    simp
  | true =>
    by_cases hc : s.count < s.cfg.frameSize
    · rw [State.afterAppend_of_partial hm hc, State.afterAppend_of_partial (s := renameState ρ s) hm hc]
      simp
    · have hc : s.cfg.frameSize ≤ s.count := by omega
      cases hv : verify s.cfg.payloadCap s.frame with
      | false =>
        rw [State.afterAppend_of_bad_checksum hm hc hv,
          State.afterAppend_of_bad_checksum (s := renameState ρ s) hm hc hv]
        simp
      | true =>
        cases ht : typeInRange s.cfg s.frameType with
        | false =>
          rw [State.afterAppend_of_unknown_type hm hc hv ht,
            State.afterAppend_of_unknown_type (s := renameState ρ s) hm hc hv ht]
          simp
        | true =>
          rw [State.afterAppend_of_valid hm hc hv ht,
            State.afterAppend_of_valid (s := renameState ρ s) hm hc hv ht]
          exact complete_renameState ρ s s.frameType

@[simp] theorem renameResult_unlessFaulted (s : State) (w : Result) :
    renameResult ρ (unlessFaulted s w) = unlessFaulted (renameState ρ s) (renameResult ρ w) := by
  by_cases hf : s.fault = none
  · rw [unlessFaulted_none hf, unlessFaulted_none (s := renameState ρ s) hf]
  · rw [unlessFaulted_faulted hf, unlessFaulted_faulted (s := renameState ρ s) hf]
    simp

@[simp] theorem renameResult_unlessDispatching (s : State) (w : Result) :
    renameResult ρ (unlessDispatching s w) = unlessDispatching (renameState ρ s) (renameResult ρ w) := by
  by_cases hp : s.phase = .dispatching
  · rw [unlessDispatching_dispatching hp, unlessDispatching_dispatching (s := renameState ρ s) hp]
    simp
  · rw [unlessDispatching_other hp, unlessDispatching_other (s := renameState ρ s) hp]

/-! ## Renaming commutes with each instruction -/

theorem execRxb_renameState (b : Byte) (now : Nat) (s : State) :
    execRxb b now (renameState ρ s) = renameResult ρ (execRxb b now s) := by
  simp only [execRxb, renameResult_unlessFaulted, renameResult_unlessDispatching, ← renameState_startFrame,
    append_renameState]
  cases (s.startFrame now).append b with
  | none => rfl
  | some u => simp

theorem execPoll_renameState (now : Nat) (s : State) :
    execPoll now (renameState ρ s) = renameResult ρ (execPoll now s) := by
  cases ht : s.timedOut now <;> simp [execPoll, ht]

theorem execHret_renameState (s : State) :
    execHret (renameState ρ s) = renameResult ρ (execHret s) := by
  by_cases hp : s.phase = .dispatching <;> simp [execHret, hp]

theorem execReg_renameState (t : Byte) (h : HandlerId) (s : State) :
    execReg t (ρ h) (renameState ρ s) = renameResult ρ (execReg t h s) := by
  cases hr : typeInRange s.cfg t with
  | false => simp [execReg, hr]
  | true => cases hs : s.setHandler t h <;> simp [execReg, hr, hs]

theorem execSend_renameState (t : Byte) (payload : Option (List Byte)) (len : Nat) (s : State) :
    execSend t payload len (renameState ρ s) = renameResult ρ (execSend t payload len s) := by
  cases hp : payloadTooShort s.cfg payload len <;> simp [execSend, hp]

theorem renameState_txFlags_update (s : State) (f : Byte) :
    renameState ρ { s with txFlags := f } = { renameState ρ s with txFlags := f } := rfl

theorem execSetf_renameState (i : BitVec 3) (v : Bool) (s : State) :
    execSetf i v (renameState ρ s) = renameResult ρ (execSetf i v s) := by
  cases hi : userFlagInRange i <;> simp [execSetf, hi, renameState_txFlags_update]

theorem execSetc_renameState (v : Bool) (s : State) :
    execSetc v (renameState ρ s) = renameResult ρ (execSetc v s) := by
  simp [execSetc, renameState_txFlags_update]

theorem execRdstat_renameState (sel : Byte) (s : State) :
    execRdstat sel (renameState ρ s) = renameResult ρ (execRdstat sel s) := by
  unfold execRdstat
  split
  · simp
  · cases counterSelect sel with
    | none => simp
    | some n => cases hc : s.cfg.hasCounters <;> simp [hc]

/-- An instruction with its handler operand renamed. -/
def renameInstr : Instr → Instr
  | .reg t h => .reg t (ρ h)
  | i => i

theorem exec_renameInstr (i : Instr) (s : State) :
    exec (renameInstr ρ i) (renameState ρ s) = renameResult ρ (exec i s) := by
  cases i with
  | rxb b now => exact execRxb_renameState ρ b now s
  | poll now => exact execPoll_renameState ρ now s
  | hret => exact execHret_renameState ρ s
  | reg t h => exact execReg_renameState ρ t h s
  | send t payload len => exact execSend_renameState ρ t payload len s
  | setf i v => exact execSetf_renameState ρ i v s
  | setc v => exact execSetc_renameState ρ v s
  | rdstat sel => exact execRdstat_renameState ρ sel s

/-! ## Renaming commutes with decoding and with a step -/

theorem requireZero_map_renameInstr (o : BitVec 4) (z : Bool) (i : Instr) :
    (requireZero o z i).map (renameInstr ρ) = requireZero o z (renameInstr ρ i) := by
  cases z <;> rfl

/-- The decoder passes the handler operand on and reads nothing of it. -/
theorem decode_renamed_handler (c : Command) :
    decode { c with handler := ρ c.handler } = (decode c).map (renameInstr ρ) := by
  unfold decode
  dsimp only
  split
  case h_9 => rfl
  all_goals rw [requireZero_map_renameInstr]; rfl

theorem runCommand_renamed_handler (c : Command) (s : State) :
    runCommand { c with handler := ρ c.handler } (renameState ρ s) = renameResult ρ (runCommand c s) := by
  have hd := decode_renamed_handler ρ c
  cases hc : decode c with
  | error e =>
    rw [hc] at hd
    simp [runCommand_error hc, runCommand_error hd]
  | ok i =>
    rw [hc] at hd
    rw [runCommand_ok hc, runCommand_ok hd, exec_renameInstr]

theorem runInput_renameInput (i : Input) (s : State) :
    runInput (renameInput ρ i) (renameState ρ s) = renameResult ρ (runInput i s) := by
  cases i with
  | reset => simp [runInput]
  | command c => exact runCommand_renamed_handler ρ c s

theorem step_renameState (s : State) : step (renameState ρ s) = renameResult ρ (step s) := by
  cases h : s.inputs with
  | nil => rw [step_nil h, step_nil (by simp [h]), renameResult_next]
  | cons i rest =>
    have hρ : (renameState ρ s).inputs = renameInput ρ i :: rest.map (renameInput ρ) := by simp [h]
    rw [step_cons h, step_cons hρ]
    exact runInput_renameInput ρ i { s with inputs := rest }

end Sys2Proof.Safety
end

/-- Settles O9: every operation of the model commutes with renaming, so a step does. -/
theorem handlerIdentitiesAreOpaque : Obligations.HandlerIdentitiesAreOpaque := by
  intro ρ s
  exact Sys2Proof.Safety.step_renameState ρ s

section
/-! The frame of each instruction: the state elements that it never writes (spec/10_state.md R22 to R30). -/

namespace Sys2Proof.Safety

open Sys2Proof Sys2Proof.Machine

theorem KeepsRest.trans {s u t : State} (h : KeepsRest s u) (h' : KeepsRest u t) : KeepsRest s t := by
  obtain ⟨hcfg, hhandlers, hflags, hfault, hinputs⟩ := h
  obtain ⟨hcfg', hhandlers', hflags', hfault', hinputs'⟩ := h'
  exact ⟨hcfg'.trans hcfg, hhandlers'.trans hhandlers, hflags'.trans hflags, hfault'.trans hfault,
    hinputs'.trans hinputs⟩

/-! ## The operations of the receive path -/

theorem bump_keepsRest (s : State) (n : CounterName) : KeepsRest s (s.bump n) := by simp [KeepsRest]

theorem resync_keepsRest (s : State) (cause : DropCause) : KeepsRest s (s.resync cause) := by
  rcases s.resync_cases cause with ⟨i, -, h⟩ | ⟨-, h⟩
  · simp [h, KeepsRest]
  · simp [h, KeepsRest]

theorem complete_keepsRest {s t : State} {ty : Byte} (h : s.complete ty = .next t) : KeepsRest s t := by
  rcases State.complete_next h with ⟨hd, -, rfl⟩ | ⟨-, rfl⟩
  · simp [KeepsRest]
  · simp [KeepsRest]

theorem afterAppend_keepsRest {s t : State} (h : s.afterAppend = .next t) : KeepsRest s t := by
  rcases State.afterAppend_next h with ⟨-, rfl⟩ | ⟨-, -, rfl⟩ | ⟨-, -, -, rfl⟩ | ⟨-, -, -, -, rfl⟩ | ⟨-, -, -, -, h⟩
  · exact resync_keepsRest s .framing
  · simp [KeepsRest]
  · exact (bump_keepsRest s _).trans (resync_keepsRest _ _)
  · exact (bump_keepsRest s _).trans (resync_keepsRest _ _)
  · exact complete_keepsRest h

theorem append_startFrame_keepsRest {s u : State} {b : Byte} {now : Nat}
    (h : (s.startFrame now).append b = some u) : KeepsRest s u := by
  obtain ⟨-, rfl⟩ := State.append_eq_some.1 h
  simp [KeepsRest]

/-! ## The instructions -/

/-- RXB may write the receive state, the fault and the counters. -/
theorem execRxb_frame {b : Byte} {now : Nat} {s t : State} (h : execRxb b now s = .next t) :
    t.cfg = s.cfg ∧ t.inputs = s.inputs ∧ t.handlers = s.handlers ∧ t.txFlags = s.txFlags := by
  rcases execRxb_next h with ⟨-, rfl⟩ | ⟨-, -, rfl⟩ | ⟨-, -, u, hu, h⟩
  · simp
  · simp
  · obtain ⟨hcfg, hhandlers, hflags, -, hinputs⟩ :=
      (append_startFrame_keepsRest hu).trans (afterAppend_keepsRest h)
    exact ⟨hcfg, hinputs, hhandlers, hflags⟩

/-- POLL may write phase and count, the fault and the counters. -/
theorem execPoll_frame {now : Nat} {s t : State} (h : execPoll now s = .next t) :
    t.cfg = s.cfg ∧ t.inputs = s.inputs ∧ t.buf = s.buf ∧ t.startTs = s.startTs ∧ t.handlers = s.handlers ∧
      t.txFlags = s.txFlags := by
  rcases execPoll_next h with ⟨-, rfl⟩ | ⟨-, -, rfl⟩ | ⟨-, -, -, rfl⟩ | ⟨-, -, -, rfl⟩
  all_goals simp

/-- HRET may write phase and count. -/
theorem execHret_frame {s t : State} (h : execHret s = .next t) :
    KeepsRest s t ∧ t.buf = s.buf ∧ t.startTs = s.startTs ∧ t.counters = s.counters := by
  rcases execHret_next h with ⟨-, rfl⟩ | ⟨-, -, rfl⟩ | ⟨-, -, rfl⟩
  all_goals simp [KeepsRest]

/-- REG may write the handler table, but not its length. -/
theorem execReg_frame {ty : Byte} {hd : HandlerId} {s t : State} (h : execReg ty hd s = .next t) :
    t.cfg = s.cfg ∧ t.inputs = s.inputs ∧ KeepsReceive s t ∧ t.handlers.length = s.handlers.length ∧
      t.txFlags = s.txFlags ∧ t.fault = s.fault ∧ t.counters = s.counters := by
  rcases execReg_next h with ⟨-, rfl⟩ | ⟨-, -, -, rfl⟩ | ⟨-, -, rfl⟩
  all_goals simp [KeepsReceive]

/-- SEND may write the fault and the counters. -/
theorem execSend_frame {ty : Byte} {payload : Option (List Byte)} {len : Nat} {s t : State}
    (h : execSend ty payload len s = .next t) :
    t.cfg = s.cfg ∧ t.inputs = s.inputs ∧ KeepsReceive s t ∧ t.handlers = s.handlers ∧ t.txFlags = s.txFlags := by
  rcases execSend_next h with ⟨-, rfl⟩ | ⟨-, -, rfl⟩ | ⟨-, -, -, rfl⟩ | ⟨-, -, -, rfl⟩
  all_goals simp [KeepsReceive]

/-- SETF may write tx_flags. -/
theorem execSetf_frame {i : BitVec 3} {v : Bool} {s t : State} (h : execSetf i v s = .next t) :
    t.cfg = s.cfg ∧ t.inputs = s.inputs ∧ KeepsReceive s t ∧ t.handlers = s.handlers ∧ t.fault = s.fault ∧
      t.counters = s.counters := by
  rcases execSetf_next h with ⟨-, rfl⟩ | ⟨-, -, rfl⟩ | ⟨-, -, rfl⟩
  all_goals simp [KeepsReceive]

/-- SETC may write tx_flags. -/
theorem execSetc_frame {v : Bool} {s t : State} (h : execSetc v s = .next t) :
    t.cfg = s.cfg ∧ t.inputs = s.inputs ∧ KeepsReceive s t ∧ t.handlers = s.handlers ∧ t.fault = s.fault ∧
      t.counters = s.counters := by
  rcases execSetc_next h with ⟨-, rfl⟩ | ⟨-, rfl⟩
  all_goals simp [KeepsReceive]

/-- RDSTAT writes no state element. -/
theorem execRdstat_frame {sel : Byte} {s t : State} (h : execRdstat sel s = .next t) :
    KeepsReceive s t ∧ KeepsRest s t ∧ t.counters = s.counters := by
  obtain ⟨r, hr, -⟩ := execRdstat_eq sel s
  cases hr.symm.trans h
  simp [KeepsReceive, KeepsRest]

end Sys2Proof.Safety

open Sys2Proof Sys2Proof.Safety

/-- Settles O6: each instruction's frame lemma says what it keeps, and its mnemonic is among those allowed to write the
rest. -/
theorem eachElementIsWrittenOnlyByItsCommands : Obligations.EachElementIsWrittenOnlyByItsCommands := by
  intro i s t h
  cases i with
  | rxb b now =>
    obtain ⟨hcfg, hinputs, hhandlers, hflags⟩ := execRxb_frame h
    simp [Instr.mnemonic, hcfg, hinputs, hhandlers, hflags]
  | poll now =>
    obtain ⟨hcfg, hinputs, hbuf, hts, hhandlers, hflags⟩ := execPoll_frame h
    simp [Instr.mnemonic, hcfg, hinputs, hbuf, hts, hhandlers, hflags]
  | hret =>
    obtain ⟨⟨hcfg, hhandlers, hflags, hfault, hinputs⟩, hbuf, hts, hcounters⟩ := execHret_frame h
    simp [Instr.mnemonic, hcfg, hinputs, hbuf, hts, hhandlers, hflags, hfault, hcounters]
  | reg ty hd =>
    obtain ⟨hcfg, hinputs, ⟨hphase, hcount, hbuf, hts⟩, -, hflags, hfault, hcounters⟩ := execReg_frame h
    simp [Instr.mnemonic, hcfg, hinputs, hphase, hcount, hbuf, hts, hflags, hfault, hcounters]
  | send ty payload len =>
    obtain ⟨hcfg, hinputs, ⟨hphase, hcount, hbuf, hts⟩, hhandlers, hflags⟩ := execSend_frame h
    simp [Instr.mnemonic, hcfg, hinputs, hphase, hcount, hbuf, hts, hhandlers, hflags]
  | setf k v =>
    obtain ⟨hcfg, hinputs, ⟨hphase, hcount, hbuf, hts⟩, hhandlers, hfault, hcounters⟩ := execSetf_frame h
    simp [Instr.mnemonic, hcfg, hinputs, hphase, hcount, hbuf, hts, hhandlers, hfault, hcounters]
  | setc v =>
    obtain ⟨hcfg, hinputs, ⟨hphase, hcount, hbuf, hts⟩, hhandlers, hfault, hcounters⟩ := execSetc_frame h
    simp [Instr.mnemonic, hcfg, hinputs, hphase, hcount, hbuf, hts, hhandlers, hfault, hcounters]
  | rdstat sel =>
    obtain ⟨⟨hphase, hcount, hbuf, hts⟩, ⟨hcfg, hhandlers, hflags, hfault, hinputs⟩, hcounters⟩ :=
      execRdstat_frame h
    simp [Instr.mnemonic, hcfg, hinputs, hphase, hcount, hbuf, hts, hhandlers, hflags, hfault, hcounters]
end

section
/-! The invariant Inv (spec/10_state.md R26) at reset and after every step. A kept receive state keeps it, Idle with
count 0 has it, and what follows an append restores it from `Appended`. -/

namespace Sys2Proof.Safety

open Sys2Proof Sys2Proof.Machine

/-! ## Reset -/

theorem shape_resetWith {c : Config} (h : c.Legal) : Shape (State.resetWith c) where
  legal := h
  buf := List.length_replicate
  handlers := List.length_replicate
  startTs := Nat.two_pow_pos _

/-- Idle with count 0 has I-1 to I-3, whatever the buffer holds. -/
theorem Inv.of_idle {s : State} (hshape : Shape s) (hflags : ReservedZero s) (hphase : s.phase = .idle)
    (hcount : s.count = 0) : Inv s where
  shape := hshape
  idle := by simp [IdleIffEmpty, hphase, hcount]
  partialFrame := by simp [PartialFrame, hphase]
  held := by simp [HeldFrame, hphase]
  reserved := hflags

theorem reservedFlags_zero : reservedFlags 0x00 = 0 := by decide

theorem inv_resetWith {c : Config} (h : c.Legal) : Inv (State.resetWith c) :=
  .of_idle (shape_resetWith h) reservedFlags_zero rfl rfl

/-! ## What keeps the shape and the invariant -/

theorem Shape.congr {s t : State} (h : Shape s) (hcfg : t.cfg = s.cfg) (hbuf : t.buf.length = s.buf.length)
    (hhandlers : t.handlers.length = s.handlers.length) (hts : t.startTs = s.startTs) : Shape t where
  legal := hcfg ▸ h.legal
  buf := by rw [hbuf, hcfg, h.buf]
  handlers := by rw [hhandlers, hcfg, h.handlers]
  startTs := by rw [hts, hcfg]; exact h.startTs

theorem Inv.of_keepsReceive {s t : State} (h : Inv s) (hcfg : t.cfg = s.cfg) (hreceive : KeepsReceive s t)
    (hhandlers : t.handlers.length = s.handlers.length) (hflags : ReservedZero t) : Inv t := by
  obtain ⟨hphase, hcount, hbuf, hts⟩ := hreceive
  refine ⟨h.shape.congr hcfg (by rw [hbuf]) hhandlers hts, ?_, ?_, ?_, hflags⟩
  · simpa only [IdleIffEmpty, hphase, hcount] using h.idle
  · simpa only [PartialFrame, hphase, hcount, hbuf, hcfg] using h.partialFrame
  · simpa only [HeldFrame, State.frame, State.frameType, hphase, hcount, hbuf, hcfg] using h.held

theorem Inv.respond {s : State} (h : Inv s) (r : Response) (es : List Event) : Inv (s.respond r es) :=
  h.of_keepsReceive rfl ⟨rfl, rfl, rfl, rfl⟩ rfl h.reserved

theorem Inv.refuse {s : State} (h : Inv s) (e : ErrCode) : Inv (s.refuse e) :=
  h.respond _ _

theorem Inv.raise {s : State} (h : Inv s) (c : FaultCode) : Inv (s.raise c) :=
  h.of_keepsReceive rfl ⟨rfl, rfl, rfl, rfl⟩ rfl h.reserved

theorem Inv.bump {s : State} (h : Inv s) (n : CounterName) : Inv (s.bump n) :=
  h.of_keepsReceive (by simp) (by simp [KeepsReceive]) (by simp) (by simpa [ReservedZero] using h.reserved)

theorem inv_toIdle {s : State} (hshape : Shape s) (hflags : ReservedZero s) : Inv s.toIdle :=
  .of_idle (hshape.congr rfl rfl rfl rfl) hflags rfl rfl

theorem Inv.applyReset {s : State} (h : Inv s) : Inv s.applyReset :=
  (inv_resetWith h.shape.legal).of_keepsReceive rfl ⟨rfl, rfl, rfl, rfl⟩ rfl reservedFlags_zero

/-! ## The reserved bits of tx_flags -/

/-- Each bit of a byte with bit k written. -/
theorem getLsbD_setBit (x : Byte) {k : Nat} (hk : k < 8) (v : Bool) (j : Nat) :
    (setBit x k v).getLsbD j = if j = k then v else x.getLsbD j := by
  by_cases hj : j = k
  · subst hj
    cases v <;> simp [setBit, hk]
  · have hkj : ¬ k = j := Ne.symm hj
    cases v with
    | false => simpa [setBit, BitVec.getLsbD_twoPow, hj, hkj] using BitVec.lt_of_getLsbD
    | true => simp [setBit, BitVec.getLsbD_twoPow, hj, hkj]

theorem reservedFlags_setBit (x : Byte) {k : Nat} (v : Bool) (h : k < 4 ∨ k = 7) :
    reservedFlags (setBit x k v) = reservedFlags x := by
  refine BitVec.eq_of_getLsbD_eq fun j hj => ?_
  have hne : 4 + j ≠ k := by omega
  simp [reservedFlags, getLsbD_setBit x (show k < 8 by omega), hne]

theorem reservedFlags_writeUserFlag (x : Byte) {i : BitVec 3} (v : Bool) (h : userFlagInRange i = true) :
    reservedFlags (writeUserFlag x i v) = reservedFlags x := by
  have hi : i.toNat ≤ 3 := by simpa [userFlagInRange] using h
  exact reservedFlags_setBit x v (.inl (by omega))

theorem reservedFlags_writeCrit (x : Byte) (v : Bool) : reservedFlags (writeCrit x v) = reservedFlags x :=
  reservedFlags_setBit x v (.inr rfl)

/-! ## The append of a byte and what follows it -/

/-- What RXB's append leaves (41_framing.md R120, R121): I-1 to I-4 but for what is tested next, the marker and whether
the frame is complete. -/
structure Appended (s : State) : Prop where
  shape : Shape s
  phase : s.phase = .accumulating
  nonempty : 1 ≤ s.count
  fits : s.count ≤ s.cfg.frameSize
  reserved : ReservedZero s

theorem Shape.frameSize_ge {s : State} (h : Shape s) : 6 ≤ s.cfg.frameSize := by
  obtain ⟨hp, -⟩ := h.legal
  simp only [Config.frameSize]
  omega

/-- Outside Dispatching there is room for one more byte (20_memory.md R51). -/
theorem Inv.count_lt_frameSize {s : State} (h : Inv s) (hp : s.phase ≠ .dispatching) : s.count < s.cfg.frameSize := by
  have hsize := h.shape.frameSize_ge
  cases hphase : s.phase with
  | idle => have := h.idle.1 hphase; omega
  | accumulating => obtain ⟨-, hle, -⟩ := h.partialFrame hphase; omega
  | dispatching => exact absurd hphase hp

theorem clockValue_lt (c : Config) (now : Nat) : clockValue c now < 2 ^ c.clockWidth := BitVec.isLt _

theorem Shape.startFrame {s : State} (h : Shape s) (now : Nat) : Shape (s.startFrame now) where
  legal := by simpa using h.legal
  buf := by simpa using h.buf
  handlers := by simpa using h.handlers
  startTs := by
    by_cases hp : s.phase = .idle
    · simpa [hp] using clockValue_lt s.cfg now
    · simpa [hp] using h.startTs

theorem Inv.count_startFrame_lt_length {s : State} (h : Inv s) (hp : s.phase ≠ .dispatching) (now : Nat) :
    (s.startFrame now).count < (s.startFrame now).buf.length := by
  simpa [h.shape.buf] using h.count_lt_frameSize hp

theorem Inv.appended {s u : State} {b : Byte} {now : Nat} (h : Inv s) (hp : s.phase ≠ .dispatching)
    (hu : (s.startFrame now).append b = some u) : Appended u := by
  have hroom := h.count_lt_frameSize hp
  obtain ⟨-, rfl⟩ := State.append_eq_some.1 hu
  refine ⟨(h.shape.startFrame now).congr rfl (by simp) rfl rfl, ?_, by simp, ?_, ?_⟩
  · cases hphase : s.phase with
    | idle => simp [hphase]
    | accumulating => simp [hphase]
    | dispatching => exact absurd hphase hp
  · simpa using hroom
  · simpa [ReservedZero] using h.reserved

theorem Appended.count_le_length {s : State} (h : Appended s) : s.count ≤ s.buf.length := by
  rw [h.shape.buf]
  exact h.fits

theorem Appended.bump {s : State} (h : Appended s) (n : CounterName) : Appended (s.bump n) where
  shape := h.shape.congr (by simp) (by simp) (by simp) (by simp)
  phase := by simpa using h.phase
  nonempty := by simpa using h.nonempty
  fits := by simpa using h.fits
  reserved := by simpa [ReservedZero] using h.reserved

theorem Appended.inv_toIdle {s : State} (h : Appended s) : Inv s.toIdle :=
  Safety.inv_toIdle h.shape h.reserved

theorem markerOk_eq_true {s : State} : s.markerOk = true ↔ s.buf[0]? = some s.cfg.marker := by
  simp [State.markerOk]

theorem Appended.inv_of_partial {s : State} (h : Appended s) (hm : s.markerOk = true) (hc : s.count < s.cfg.frameSize) :
    Inv s where
  shape := h.shape
  idle := by simp [IdleIffEmpty, h.phase, Nat.pos_iff_ne_zero.1 h.nonempty]
  partialFrame _ := ⟨h.nonempty, by omega, markerOk_eq_true.1 hm⟩
  held := by simp [HeldFrame, h.phase]
  reserved := h.reserved

theorem Appended.shiftBuf {s : State} {i : Nat} (h : Appended s) (hi : i < s.count) : Appended (s.shiftBuf i) where
  shape := h.shape.congr rfl (State.shiftBuf_buf_length hi.le h.count_le_length) rfl rfl
  phase := h.phase
  nonempty := Nat.sub_pos_of_lt hi
  fits := (Nat.sub_le _ _).trans h.fits
  reserved := h.reserved

/-- A shift leaves a partial frame that begins with MARKER (41_framing.md R132); with no later MARKER the receive path is
Idle (R130). -/
theorem Appended.inv_resync {s : State} (h : Appended s) (cause : DropCause) : Inv (s.resync cause) := by
  have hbump := h.bump .resync
  rcases s.resync_cases cause with ⟨i, hi, ht⟩ | ⟨-, ht⟩
  · obtain ⟨hi1, hlt, hmarker, -⟩ := State.nextMarker_eq_some.1 hi
    have hlt : i < (s.bump .resync).count := by simpa using hlt
    rw [ht]
    refine ((hbump.shiftBuf hlt).inv_of_partial (markerOk_eq_true.2 ?_) ?_).respond _ _
    · rw [State.shiftBuf_getElem?_lt hbump.count_le_length (Nat.sub_pos_of_lt hlt)]
      simpa using hmarker
    · have hfits := hbump.fits
      simp only [State.shiftBuf_count, State.shiftBuf_cfg]
      omega
  · rw [ht]
    exact hbump.inv_toIdle.respond _ _

/-- A complete valid frame of a type in range is held if it has a handler, and dropped whole else. -/
theorem Appended.inv_complete {s t : State} (h : Appended s) (hm : s.markerOk = true)
    (hc : s.cfg.frameSize ≤ s.count) (hv : verify s.cfg.payloadCap s.frame = true)
    (hr : typeInRange s.cfg s.frameType = true) (ht : s.complete s.frameType = .next t) : Inv t := by
  have hcount : s.count = s.cfg.frameSize := le_antisymm h.fits hc
  have hsize := h.shape.frameSize_ge
  rcases State.complete_next ht with ⟨hd, -, rfl⟩ | ⟨-, rfl⟩
  · refine ⟨h.shape.congr (by simp) (by simp) (by simp) (by simp), ?_, by simp [PartialFrame], ?_, ?_⟩
    · simp [IdleIffEmpty]; omega
    · intro _
      have hr : s.frameType.toNat < s.cfg.typeCount := by simpa [typeInRange] using hr
      simpa [State.frame, State.frameType] using ⟨hcount, hv, hr, markerOk_eq_true.1 hm⟩
    · simpa [ReservedZero] using h.reserved
  · exact (h.bump .unreg).inv_toIdle.respond _ _

theorem Appended.inv_afterAppend {s t : State} (h : Appended s) (ht : s.afterAppend = .next t) : Inv t := by
  rcases State.afterAppend_next ht with ⟨-, rfl⟩ | ⟨hm, hc, rfl⟩ | ⟨-, -, -, rfl⟩ | ⟨-, -, -, -, rfl⟩ |
    ⟨hm, hc, hv, hr, ht⟩
  · exact h.inv_resync .framing
  · exact (h.inv_of_partial hm hc).respond _ _
  · exact (h.bump .checksum).inv_resync .checksum
  · exact (h.bump .unkType).inv_resync .unknownType
  · exact h.inv_complete hm hc hv hr ht

/-! ## The instructions and the step -/

theorem Inv.execRxb {b : Byte} {now : Nat} {s t : State} (h : Inv s) (ht : execRxb b now s = .next t) : Inv t := by
  rcases execRxb_next ht with ⟨-, rfl⟩ | ⟨-, -, rfl⟩ | ⟨-, hp, u, hu, ht⟩
  · exact h.refuse .faulted
  · exact h.raise .reentrant
  · exact (h.appended hp hu).inv_afterAppend ht

theorem Inv.execPoll {now : Nat} {s t : State} (h : Inv s) (ht : execPoll now s = .next t) : Inv t := by
  rcases execPoll_next ht with ⟨-, rfl⟩ | ⟨-, -, rfl⟩ | ⟨-, -, -, rfl⟩ | ⟨-, -, -, rfl⟩
  · exact h.refuse .faulted
  · exact h.raise .reentrant
  · exact ((inv_toIdle h.shape h.reserved).bump .timeout).respond _ _
  · exact h.respond _ _

theorem Inv.execHret {s t : State} (h : Inv s) (ht : execHret s = .next t) : Inv t := by
  rcases execHret_next ht with ⟨-, rfl⟩ | ⟨-, -, rfl⟩ | ⟨-, -, rfl⟩
  · exact h.refuse .faulted
  · exact (inv_toIdle h.shape h.reserved).respond _ _
  · exact h.refuse .notDispatching

theorem Inv.execSetf {i : BitVec 3} {v : Bool} {s t : State} (h : Inv s) (ht : execSetf i v s = .next t) : Inv t := by
  obtain ⟨hcfg, -, hreceive, hhandlers, -⟩ := execSetf_frame ht
  refine h.of_keepsReceive hcfg hreceive (by rw [hhandlers]) ?_
  rcases execSetf_next ht with ⟨-, rfl⟩ | ⟨-, hi, rfl⟩ | ⟨-, -, rfl⟩
  · exact h.reserved
  · exact (reservedFlags_writeUserFlag _ v hi).trans h.reserved
  · exact h.reserved

theorem Inv.execSetc {v : Bool} {s t : State} (h : Inv s) (ht : execSetc v s = .next t) : Inv t := by
  obtain ⟨hcfg, -, hreceive, hhandlers, -⟩ := execSetc_frame ht
  refine h.of_keepsReceive hcfg hreceive (by rw [hhandlers]) ?_
  rcases execSetc_next ht with ⟨-, rfl⟩ | ⟨-, rfl⟩
  · exact h.reserved
  · exact (reservedFlags_writeCrit _ v).trans h.reserved

theorem Inv.exec {i : Instr} {s t : State} (h : Inv s) (ht : exec i s = .next t) : Inv t := by
  cases i with
  | rxb b now => exact h.execRxb ht
  | poll now => exact h.execPoll ht
  | hret => exact h.execHret ht
  | reg ty hd =>
    obtain ⟨hcfg, -, hreceive, hhandlers, hflags, -⟩ := execReg_frame ht
    exact h.of_keepsReceive hcfg hreceive hhandlers (by rw [ReservedZero, hflags]; exact h.reserved)
  | send ty payload len =>
    obtain ⟨hcfg, -, hreceive, hhandlers, hflags⟩ := execSend_frame ht
    exact h.of_keepsReceive hcfg hreceive (by rw [hhandlers]) (by rw [ReservedZero, hflags]; exact h.reserved)
  | setf k v => exact h.execSetf ht
  | setc v => exact h.execSetc ht
  | rdstat sel =>
    obtain ⟨hreceive, ⟨hcfg, hhandlers, hflags, -⟩, -⟩ := execRdstat_frame ht
    exact h.of_keepsReceive hcfg hreceive (by rw [hhandlers]) (by rw [ReservedZero, hflags]; exact h.reserved)

/-- Taking an input from the queue keeps the invariant, which says nothing of the queue. -/
theorem Inv.takeInputs {s : State} (h : Inv s) (rest : List Input) : Inv { s with inputs := rest } :=
  h.of_keepsReceive rfl ⟨rfl, rfl, rfl, rfl⟩ rfl h.reserved

theorem Inv.step {s t : State} (h : Inv s) (ht : step s = .next t) : Inv t := by
  rcases step_next ht with ⟨-, rfl⟩ | ⟨rest, -, rfl⟩ | ⟨c, rest, -, ⟨e, -, rfl⟩ | ⟨i, -, ht⟩⟩
  · exact h
  · exact (h.takeInputs rest).applyReset
  · exact (h.takeInputs rest).refuse .illegal
  · exact (h.takeInputs rest).exec ht

end Sys2Proof.Safety

open Sys2Proof Sys2Proof.Machine Sys2Proof.Safety

/-- Settles O1: both reset states are written out in the model, and each value is read off. -/
theorem resetLeavesSpecValues : Obligations.ResetLeavesSpecValues := by
  refine ⟨fun s rest h => ⟨_, step_reset h, ?_⟩, fun c => ?_⟩
  · exact ⟨rfl, rfl, List.length_replicate, List.length_replicate, fun k hk => List.getElem?_replicate_of_lt hk, rfl, rfl,
      Counters.get_zero, rfl, rfl, rfl⟩
  · exact ⟨rfl, rfl, List.length_replicate, List.length_replicate, fun k hk => List.getElem?_replicate_of_lt hk, rfl, rfl,
      Counters.get_zero, rfl, rfl⟩

/-- Settles O2: Idle with count 0 has the invariant where the shape is right, and TC is legal. -/
theorem invHoldsAtReset : Obligations.InvHoldsAtReset :=
  ⟨fun _ => inv_resetWith, inv_resetWith (by decide)⟩

/-- Settles O3, by the cases of a step and of its instruction; RXB goes through `Appended`, the state between its append
and its tests. -/
theorem everyStepKeepsInv : Obligations.EveryStepKeepsInv :=
  fun _ _ => Inv.step
end

section
/-! No step tells apart two states that agree where SameVisible asks (spec/10_state.md R24, R25). Each operation keeps the
agreement, and each thing the framer reads is the same in both states. -/

namespace Sys2Proof.Safety

open Sys2Proof Sys2Proof.Machine

/-! ## What the framer reads -/

section SameVisible

variable {s s' : State} (h : SameVisible s s')
include h

theorem SameVisible.cfg_eq : s'.cfg = s.cfg := by
  obtain ⟨hcfg, -⟩ := h
  exact hcfg

theorem SameVisible.phase_eq : s'.phase = s.phase := by
  obtain ⟨-, hphase, -⟩ := h
  exact hphase

theorem SameVisible.count_eq : s'.count = s.count := by
  obtain ⟨-, -, hcount, -⟩ := h
  exact hcount

theorem SameVisible.buf_getElem?_eq {k : Nat} (hk : k < s.count) : s'.buf[k]? = s.buf[k]? := by
  obtain ⟨-, -, -, hbuf, -⟩ := h
  exact hbuf k hk

theorem SameVisible.handlers_eq : s'.handlers = s.handlers := by
  obtain ⟨-, -, -, -, -, hhandlers, -⟩ := h
  exact hhandlers

theorem SameVisible.txFlags_eq : s'.txFlags = s.txFlags := by
  obtain ⟨-, -, -, -, -, -, hflags, -⟩ := h
  exact hflags

theorem SameVisible.fault_eq : s'.fault = s.fault := by
  obtain ⟨-, -, -, -, -, -, -, hfault, -⟩ := h
  exact hfault

theorem SameVisible.counters_eq : s'.counters = s.counters := by
  obtain ⟨-, -, -, -, -, -, -, -, hcounters, -⟩ := h
  exact hcounters

theorem SameVisible.inputs_eq : s'.inputs = s.inputs := by
  obtain ⟨-, -, -, -, -, -, -, -, -, hinputs, -⟩ := h
  exact hinputs

theorem SameVisible.statusWord_eq : statusWord s' = statusWord s := by
  simp only [statusWord, h.txFlags_eq, h.count_eq, h.fault_eq, h.phase_eq]

theorem SameVisible.timedOut_eq (now : Nat) : s'.timedOut now = s.timedOut now := by
  obtain ⟨hcfg, hphase, -, -, hts, -⟩ := h
  by_cases hp : s.phase = .accumulating
  · simp [State.timedOut, hphase, hcfg, hts hp]
  · simp [State.timedOut, hphase, hp]

theorem SameVisible.markerOk_eq (hc : 0 < s.count) : s'.markerOk = s.markerOk := by
  simp only [State.markerOk, h.buf_getElem?_eq hc, h.cfg_eq]

theorem SameVisible.frameType_eq (hc : 1 < s.count) : s'.frameType = s.frameType := by
  simp only [State.frameType, List.getD_eq_getElem?_getD, h.buf_getElem?_eq hc]

/-- A complete frame lies below count. -/
theorem SameVisible.frame_eq (hc : s.cfg.frameSize ≤ s.count) : s'.frame = s.frame := by
  refine List.ext_getElem? fun k => ?_
  simp only [State.frame, List.getElem?_take, h.cfg_eq]
  split
  · exact h.buf_getElem?_eq (by omega)
  · rfl

theorem SameVisible.nextMarker_eq : s'.nextMarker = s.nextMarker := by
  cases hn : s.nextMarker with
  | none =>
    rw [State.nextMarker_eq_none] at hn ⊢
    intro j h1 hj
    rw [h.count_eq] at hj
    rw [h.buf_getElem?_eq hj, h.cfg_eq]
    exact hn j h1 hj
  | some i =>
    obtain ⟨h1, hi, hmarker, hleast⟩ := State.nextMarker_eq_some.1 hn
    rw [State.nextMarker_eq_some, h.count_eq, h.cfg_eq, h.buf_getElem?_eq hi]
    refine ⟨h1, hi, hmarker, fun j hj hji => ?_⟩
    rw [h.buf_getElem?_eq (by omega)]
    exact hleast j hj hji

/-! ## Each operation keeps the agreement -/

theorem SameVisible.respond (r : Response) (es : List Event) : SameVisible (s.respond r es) (s'.respond r es) := by
  simpa [SameVisible] using h

theorem SameVisible.refuse (e : ErrCode) : SameVisible (s.refuse e) (s'.refuse e) :=
  h.respond _ _

theorem SameVisible.setFault (f : Option FaultCode) : SameVisible { s with fault := f } { s' with fault := f } := by
  obtain ⟨hcfg, hphase, hcount, hbuf, hts, hhandlers, hflags, -, hrest⟩ := h
  exact ⟨hcfg, hphase, hcount, hbuf, hts, hhandlers, hflags, rfl, hrest⟩

theorem SameVisible.raise (c : FaultCode) : SameVisible (s.raise c) (s'.raise c) :=
  (h.setFault (some c)).respond _ _

theorem SameVisible.setTxFlags (f : Byte) : SameVisible { s with txFlags := f } { s' with txFlags := f } := by
  obtain ⟨hcfg, hphase, hcount, hbuf, hts, hhandlers, -, hrest⟩ := h
  exact ⟨hcfg, hphase, hcount, hbuf, hts, hhandlers, rfl, hrest⟩

theorem SameVisible.setHandlers (l : List (Option HandlerId)) :
    SameVisible { s with handlers := l } { s' with handlers := l } := by
  obtain ⟨hcfg, hphase, hcount, hbuf, hts, -, hrest⟩ := h
  exact ⟨hcfg, hphase, hcount, hbuf, hts, rfl, hrest⟩

theorem SameVisible.setInputs (rest : List Input) :
    SameVisible { s with inputs := rest } { s' with inputs := rest } := by
  obtain ⟨hcfg, hphase, hcount, hbuf, hts, hhandlers, hflags, hfault, hcounters, -, houtputs⟩ := h
  exact ⟨hcfg, hphase, hcount, hbuf, hts, hhandlers, hflags, hfault, hcounters, rfl, houtputs⟩

theorem SameVisible.bump (n : CounterName) : SameVisible (s.bump n) (s'.bump n) := by
  simpa [SameVisible, h.cfg_eq, h.counters_eq] using h

/-- Dispatching reads no start timestamp. -/
theorem SameVisible.setDispatching :
    SameVisible { s with phase := .dispatching } { s' with phase := .dispatching } := by
  obtain ⟨hcfg, -, hcount, hbuf, -, hrest⟩ := h
  exact ⟨hcfg, rfl, hcount, hbuf, nofun, hrest⟩

/-- Idle with count 0 reads no buffer byte and no start timestamp. -/
theorem SameVisible.toIdle : SameVisible s.toIdle s'.toIdle := by
  obtain ⟨hcfg, -, -, -, -, hrest⟩ := h
  exact ⟨hcfg, rfl, rfl, nofun, nofun, hrest⟩

theorem SameVisible.transmit (f : List Byte) : SameVisible (s.transmit f) (s'.transmit f) :=
  (h.bump .tx).respond _ _

theorem SameVisible.discardPartial : SameVisible s.discardPartial s'.discardPartial :=
  (h.toIdle.bump .timeout).respond _ _

theorem SameVisible.dropUnregistered (t : Byte) : SameVisible (s.dropUnregistered t) (s'.dropUnregistered t) :=
  (h.bump .unreg).toIdle.respond _ _

theorem SameVisible.endDispatch : SameVisible s.endDispatch s'.endDispatch :=
  h.toIdle.respond _ _

theorem SameVisible.applyReset : SameVisible s.applyReset s'.applyReset := by
  obtain ⟨hcfg, -, -, -, -, -, -, -, -, hinputs, houtputs⟩ := h
  simp [SameVisible, hcfg, hinputs, houtputs]

/-- A frame's start records the clock value in both states. -/
theorem SameVisible.startFrame (now : Nat) : SameVisible (s.startFrame now) (s'.startFrame now) := by
  obtain ⟨hcfg, hphase, hcount, hbuf, hts, hrest⟩ := h
  by_cases hp : s.phase = .idle
  · simpa [SameVisible, hcfg, hphase, hcount, hp] using ⟨hbuf, hrest⟩
  · simpa [SameVisible, hcfg, hphase, hcount, hp] using ⟨hbuf, hts, hrest⟩

/-- Both states get the byte at the offset count, so they agree below count + 1. -/
theorem SameVisible.append {u u' : State} {b : Byte} (hu : s.append b = some u) (hu' : s'.append b = some u') :
    SameVisible u u' := by
  have hread := State.append_getElem? hu
  have hread' := State.append_getElem? hu'
  obtain ⟨-, rfl⟩ := State.append_eq_some.1 hu
  obtain ⟨-, rfl⟩ := State.append_eq_some.1 hu'
  obtain ⟨hcfg, hphase, hcount, hbuf, hrest⟩ := h
  refine ⟨hcfg, hphase, by simp [hcount], fun k hk => ?_, hrest⟩
  rw [hread k, hread' k, hcount]
  split
  · rfl
  · next hne =>
    have hk : k < s.count + 1 := hk
    exact hbuf k (by omega)

theorem SameVisible.shiftBuf (hc : s.count ≤ s.buf.length) (hc' : s'.count ≤ s'.buf.length) (i : Nat) :
    SameVisible (s.shiftBuf i) (s'.shiftBuf i) := by
  obtain ⟨hcfg, hphase, hcount, hbuf, hrest⟩ := h
  refine ⟨hcfg, hphase, by simp [hcount], fun k hk => ?_, hrest⟩
  have hk : k < s.count - i := hk
  rw [State.shiftBuf_getElem?_lt hc hk, State.shiftBuf_getElem?_lt hc' (by omega)]
  exact hbuf (k + i) (by omega)

theorem SameVisible.deliver (hc : s.cfg.frameSize ≤ s.count) (hd : HandlerId) :
    SameVisible (s.deliver hd) (s'.deliver hd) := by
  rw [State.deliver, State.deliver, h.frame_eq hc]
  exact (h.bump .deliver).setDispatching.respond _ _

theorem SameVisible.resync (hc : s.count ≤ s.buf.length) (hc' : s'.count ≤ s'.buf.length) (cause : DropCause) :
    SameVisible (s.resync cause) (s'.resync cause) := by
  have hn' := h.nextMarker_eq
  cases hn : s.nextMarker with
  | some i =>
    rw [State.resync_of_some hn, State.resync_of_some (hn'.trans hn)]
    exact ((h.bump .resync).shiftBuf (by simpa using hc) (by simpa using hc') i).respond _ _
  | none =>
    rw [State.resync_of_none hn, State.resync_of_none (hn'.trans hn)]
    exact (h.bump .resync).toIdle.respond _ _

end SameVisible

/-! ## The outcomes -/

/-- Where the first outcome is a next state, so is the second, and the two agree. -/
def SameVisibleResult (r r' : Result) : Prop := ∀ t, r = .next t → ∃ t', r' = .next t' ∧ SameVisible t t'

theorem SameVisible.next {t t' : State} (h : SameVisible t t') : SameVisibleResult (.next t) (.next t') := by
  rintro _ ⟨⟩
  exact ⟨t', rfl, h⟩

section

variable {s s' : State} (h : SameVisible s s')
include h

theorem SameVisible.unlessFaulted {w w' : Result} (hw : SameVisibleResult w w') :
    SameVisibleResult (unlessFaulted s w) (unlessFaulted s' w') := by
  by_cases hf : s.fault = none
  · rwa [unlessFaulted_none hf, unlessFaulted_none (h.fault_eq.trans hf)]
  · rw [unlessFaulted_faulted hf, unlessFaulted_faulted (by rwa [h.fault_eq])]
    exact (h.refuse .faulted).next

/-- The command's own work is compared outside Dispatching only. -/
theorem SameVisible.unlessDispatching {w w' : Result} (hw : s.phase ≠ .dispatching → SameVisibleResult w w') :
    SameVisibleResult (unlessDispatching s w) (unlessDispatching s' w') := by
  by_cases hp : s.phase = .dispatching
  · rw [unlessDispatching_dispatching hp, unlessDispatching_dispatching (h.phase_eq.trans hp)]
    exact (h.raise .reentrant).next
  · rw [unlessDispatching_other hp, unlessDispatching_other (by rwa [h.phase_eq])]
    exact hw hp

theorem SameVisible.complete (hc : s.cfg.frameSize ≤ s.count) (ty : Byte) :
    SameVisibleResult (s.complete ty) (s'.complete ty) := by
  intro t ht
  rcases State.complete_next ht with ⟨hd, hhd, rfl⟩ | ⟨hnone, rfl⟩
  · exact ⟨_, State.complete_of_some (by rwa [h.handlers_eq]), h.deliver hc hd⟩
  · exact ⟨_, State.complete_of_none (by rwa [h.handlers_eq]), h.dropUnregistered ty⟩

/-- Every test after an append reads bytes below count only: MARKER at offset 0, and the frame when it is complete. -/
theorem SameVisible.afterAppend (hs : Appended s) (hs' : Appended s') :
    SameVisibleResult s.afterAppend s'.afterAppend := by
  have hlen : s.count ≤ s.buf.length := hs.count_le_length
  have hlen' : s'.count ≤ s'.buf.length := hs'.count_le_length
  have hm := h.markerOk_eq hs.nonempty
  have hcount (hc : s.cfg.frameSize ≤ s.count) : s'.cfg.frameSize ≤ s'.count := by rwa [h.count_eq, h.cfg_eq]
  have hverify (hc : s.cfg.frameSize ≤ s.count) :
      verify s'.cfg.payloadCap s'.frame = verify s.cfg.payloadCap s.frame := by rw [h.cfg_eq, h.frame_eq hc]
  have htype (hc : s.cfg.frameSize ≤ s.count) : s'.frameType = s.frameType :=
    h.frameType_eq (by have := hs.shape.frameSize_ge; omega)
  have hrange (hc : s.cfg.frameSize ≤ s.count) :
      typeInRange s'.cfg s'.frameType = typeInRange s.cfg s.frameType := by rw [h.cfg_eq, htype hc]
  intro t ht
  rcases State.afterAppend_next ht with ⟨hm1, rfl⟩ | ⟨hm1, hc, rfl⟩ | ⟨hm1, hc, hv, rfl⟩ | ⟨hm1, hc, hv, hr, rfl⟩ |
    ⟨hm1, hc, hv, hr, ht⟩
  · exact ⟨_, State.afterAppend_of_bad_marker (hm.trans hm1), h.resync hlen hlen' .framing⟩
  · exact ⟨_, State.afterAppend_of_partial (hm.trans hm1) (by rwa [h.count_eq, h.cfg_eq]), h.respond _ _⟩
  · exact ⟨_, State.afterAppend_of_bad_checksum (hm.trans hm1) (hcount hc) ((hverify hc).trans hv),
      (h.bump .checksum).resync (by simpa using hlen) (by simpa using hlen') .checksum⟩
  · exact ⟨_, State.afterAppend_of_unknown_type (hm.trans hm1) (hcount hc) ((hverify hc).trans hv) ((hrange hc).trans hr),
      (h.bump .unkType).resync (by simpa using hlen) (by simpa using hlen') .unknownType⟩
  · rw [State.afterAppend_of_valid (hm.trans hm1) (hcount hc) ((hverify hc).trans hv) ((hrange hc).trans hr), htype hc]
    exact h.complete hc _ t ht

/-! ## The instructions and the step -/

theorem SameVisible.execRxb (hs : Inv s) (hs' : Inv s') (b : Byte) (now : Nat) :
    SameVisibleResult (execRxb b now s) (execRxb b now s') := by
  refine h.unlessFaulted (h.unlessDispatching fun hp => ?_)
  have hp' : s'.phase ≠ .dispatching := by rwa [h.phase_eq]
  have hu := State.append_of_lt (b := b) (hs.count_startFrame_lt_length hp now)
  have hu' := State.append_of_lt (b := b) (hs'.count_startFrame_lt_length hp' now)
  rw [hu, hu']
  exact ((h.startFrame now).append hu hu').afterAppend (hs.appended hp hu) (hs'.appended hp' hu')

theorem SameVisible.execPoll (now : Nat) : SameVisibleResult (execPoll now s) (execPoll now s') := by
  refine h.unlessFaulted (h.unlessDispatching fun _ => ?_)
  rw [h.timedOut_eq now]
  split
  · exact h.discardPartial.next
  · exact (h.respond _ _).next

theorem SameVisible.execHret : SameVisibleResult (execHret s) (execHret s') := by
  refine h.unlessFaulted ?_
  rw [h.phase_eq]
  split
  · exact h.endDispatch.next
  · exact (h.refuse .notDispatching).next

theorem SameVisible.execReg (ty : Byte) (hd : HandlerId) :
    SameVisibleResult (execReg ty hd s) (execReg ty hd s') := by
  refine h.unlessFaulted ?_
  rw [h.cfg_eq]
  split
  · cases hu : s.setHandler ty hd with
    | none => nofun
    | some u =>
      obtain ⟨hl, rfl⟩ := State.setHandler_eq_some.1 hu
      rw [State.setHandler_eq_some.2 ⟨by rwa [h.handlers_eq], rfl⟩, h.handlers_eq]
      exact ((h.setHandlers _).respond _ _).next
  · exact (h.refuse .typeRange).next

theorem SameVisible.execSend (ty : Byte) (payload : Option (List Byte)) (len : Nat) :
    SameVisibleResult (execSend ty payload len s) (execSend ty payload len s') := by
  refine h.unlessFaulted (h.unlessDispatching fun _ => ?_)
  rw [h.cfg_eq, h.txFlags_eq]
  split
  · exact (h.raise .payloadShort).next
  · exact (h.transmit _).next

theorem SameVisible.execSetf (i : BitVec 3) (v : Bool) : SameVisibleResult (execSetf i v s) (execSetf i v s') := by
  refine h.unlessFaulted ?_
  rw [h.txFlags_eq]
  split
  · exact ((h.setTxFlags _).respond _ _).next
  · exact (h.refuse .flagIndex).next

theorem SameVisible.execSetc (v : Bool) : SameVisibleResult (execSetc v s) (execSetc v s') := by
  refine h.unlessFaulted ?_
  rw [h.txFlags_eq]
  exact ((h.setTxFlags _).respond _ _).next

theorem SameVisible.execRdstat (sel : Byte) : SameVisibleResult (execRdstat sel s) (execRdstat sel s') := by
  unfold Machine.execRdstat
  rw [h.statusWord_eq, h.cfg_eq, h.counters_eq]
  split
  · exact (h.respond _ _).next
  · cases counterSelect sel with
    | none => exact (h.refuse .select).next
    | some n =>
      dsimp only
      split
      · exact (h.respond _ _).next
      · exact (h.refuse .noCounters).next

theorem SameVisible.exec (hs : Inv s) (hs' : Inv s') (i : Instr) : SameVisibleResult (exec i s) (exec i s') := by
  cases i with
  | rxb b now => exact h.execRxb hs hs' b now
  | poll now => exact h.execPoll now
  | hret => exact h.execHret
  | reg ty hd => exact h.execReg ty hd
  | send ty payload len => exact h.execSend ty payload len
  | setf k v => exact h.execSetf k v
  | setc v => exact h.execSetc v
  | rdstat sel => exact h.execRdstat sel

theorem SameVisible.step (hs : Inv s) (hs' : Inv s') : SameVisibleResult (step s) (step s') := by
  cases hi : s.inputs with
  | nil =>
    rw [step_nil hi, step_nil (h.inputs_eq.trans hi)]
    exact h.next
  | cons i rest =>
    have hi' := h.inputs_eq.trans hi
    have h := h.setInputs rest
    cases i with
    | reset =>
      rw [step_reset hi, step_reset hi']
      exact h.applyReset.next
    | command c =>
      rw [step_command hi, step_command hi']
      cases hd : decode c with
      | error e =>
        rw [runCommand_error hd, runCommand_error hd]
        exact (h.refuse .illegal).next
      | ok i =>
        rw [runCommand_ok hd, runCommand_ok hd]
        exact h.exec (hs.takeInputs rest) (hs'.takeInputs rest) i

end

end Sys2Proof.Safety

open Sys2Proof Sys2Proof.Machine Sys2Proof.Safety

/-- Settles O10: each operation keeps the agreement of the two states, so a step does. The invariant gives RXB its room in
both buffers and puts every byte that its tests read below count. -/
theorem staleStateIsNeverObserved : Obligations.StaleStateIsNeverObserved :=
  fun _ _ t hs hs' h ht => h.step hs hs' t ht
end

section
/-! From the invariant no step stops (spec/20_memory.md R51). Only two operations can stop: RXB's append, which Inv
gives room outside Dispatching, and the access to the handler table, which has an entry for every type in range. -/

namespace Sys2Proof.Safety

open Sys2Proof Sys2Proof.Machine

/-- The outcome is a next state: no stop. -/
def Answers (r : Result) : Prop := ∃ t, r = .next t

theorem answers_next (t : State) : Answers (.next t) := ⟨t, rfl⟩

/-- A test between two next states stops on neither side. -/
theorem answers_ite (p : Prop) [Decidable p] (t u : State) : Answers (if p then .next t else .next u) := by
  split
  · exact answers_next t
  · exact answers_next u

/-! ## The two tests before a command's work -/

theorem answers_unlessFaulted {s : State} {w : Result} (hw : Answers w) : Answers (unlessFaulted s w) := by
  by_cases hf : s.fault = none
  · rwa [unlessFaulted_none hf]
  · rw [unlessFaulted_faulted hf]
    exact answers_next _

/-- The command's own work has to answer outside Dispatching only. -/
theorem answers_unlessDispatching {s : State} {w : Result} (hw : s.phase ≠ .dispatching → Answers w) :
    Answers (unlessDispatching s w) := by
  by_cases hp : s.phase = .dispatching
  · rw [unlessDispatching_dispatching hp]
    exact answers_next _
  · rw [unlessDispatching_other hp]
    exact hw hp

/-! ## The handler table and what follows an append -/

/-- A type in range has its entry in the table (10_state.md R27). -/
theorem Shape.type_lt_handlers {s : State} (h : Shape s) {ty : Byte} (hr : typeInRange s.cfg ty = true) :
    ty.toNat < s.handlers.length := by
  simpa [h.handlers, typeInRange] using hr

theorem answers_complete {s : State} {ty : Byte} (hl : ty.toNat < s.handlers.length) : Answers (s.complete ty) := by
  have hentry := List.getElem?_eq_getElem hl
  cases he : s.handlers[ty.toNat] with
  | some hd => exact ⟨_, State.complete_of_some (hentry.trans (congrArg some he))⟩
  | none => exact ⟨_, State.complete_of_none (hentry.trans (congrArg some he))⟩

/-- The tests in the order of 41_framing.md R120; only the last outcome reads the handler table. -/
theorem Shape.answers_afterAppend {s : State} (h : Shape s) : Answers s.afterAppend := by
  cases hm : s.markerOk with
  | false => exact ⟨_, State.afterAppend_of_bad_marker hm⟩
  | true =>
    rcases Nat.lt_or_ge s.count s.cfg.frameSize with hc | hc
    · exact ⟨_, State.afterAppend_of_partial hm hc⟩
    · cases hv : verify s.cfg.payloadCap s.frame with
      | false => exact ⟨_, State.afterAppend_of_bad_checksum hm hc hv⟩
      | true =>
        cases hr : typeInRange s.cfg s.frameType with
        | false => exact ⟨_, State.afterAppend_of_unknown_type hm hc hv hr⟩
        | true =>
          rw [State.afterAppend_of_valid hm hc hv hr]
          exact answers_complete (h.type_lt_handlers hr)

/-! ## The instructions and the step -/

theorem Inv.answers_execRxb {s : State} (h : Inv s) (b : Byte) (now : Nat) : Answers (Machine.execRxb b now s) := by
  refine answers_unlessFaulted (answers_unlessDispatching fun hp => ?_)
  have hu := State.append_of_lt (b := b) (h.count_startFrame_lt_length hp now)
  rw [hu]
  exact (h.appended hp hu).shape.answers_afterAppend

theorem answers_execPoll (now : Nat) (s : State) : Answers (execPoll now s) :=
  answers_unlessFaulted (answers_unlessDispatching fun _ => answers_ite _ _ _)

theorem answers_execHret (s : State) : Answers (execHret s) :=
  answers_unlessFaulted (answers_ite _ _ _)

theorem Shape.answers_execReg {s : State} (h : Shape s) (ty : Byte) (hd : HandlerId) : Answers (execReg ty hd s) := by
  refine answers_unlessFaulted ?_
  split
  · next hr =>
    rw [State.setHandler_eq_some.2 ⟨h.type_lt_handlers hr, rfl⟩]
    exact answers_next _
  · exact answers_next _

theorem answers_execSend (ty : Byte) (payload : Option (List Byte)) (len : Nat) (s : State) :
    Answers (execSend ty payload len s) :=
  answers_unlessFaulted (answers_unlessDispatching fun _ => answers_ite _ _ _)

theorem answers_execSetf (i : BitVec 3) (v : Bool) (s : State) : Answers (execSetf i v s) :=
  answers_unlessFaulted (answers_ite _ _ _)

theorem answers_execSetc (v : Bool) (s : State) : Answers (execSetc v s) :=
  answers_unlessFaulted (answers_next _)

theorem answers_execRdstat (sel : Byte) (s : State) : Answers (execRdstat sel s) := by
  obtain ⟨r, hr, -⟩ := execRdstat_eq sel s
  exact ⟨_, hr⟩

theorem Inv.answers_exec {s : State} (h : Inv s) (i : Instr) : Answers (Machine.exec i s) := by
  cases i with
  | rxb b now => exact h.answers_execRxb b now
  | poll now => exact answers_execPoll now s
  | hret => exact answers_execHret s
  | reg ty hd => exact h.shape.answers_execReg ty hd
  | send ty payload len => exact answers_execSend ty payload len s
  | setf k v => exact answers_execSetf k v s
  | setc v => exact answers_execSetc v s
  | rdstat sel => exact answers_execRdstat sel s

theorem Inv.answers_step {s : State} (h : Inv s) : Answers (Machine.step s) := by
  cases hi : s.inputs with
  | nil => exact ⟨_, step_nil hi⟩
  | cons i rest =>
    cases i with
    | reset => exact ⟨_, step_reset hi⟩
    | command c =>
      rw [step_command hi]
      cases hd : decode c with
      | error e => exact ⟨_, runCommand_error hd⟩
      | ok i =>
        rw [runCommand_ok hd]
        exact (h.takeInputs rest).answers_exec i

end Sys2Proof.Safety

open Sys2Proof Sys2Proof.Machine Sys2Proof.Safety

/-- Settles O4, by the cases of a step and of its instruction: the invariant leaves RXB room for its byte and gives
every type in range its handler entry. -/
theorem noStepStopsFromInv : Obligations.NoStepStopsFromInv :=
  fun _ => Inv.answers_step

/-- Settles O12: the step lemmas for a waiting command that decodes and for an empty queue. -/
theorem stepRunsTheDecodedInstruction : Obligations.StepRunsTheDecodedInstruction :=
  ⟨fun _ _ _ _ hi hd => (step_command hi).trans (runCommand_ok hd), fun _ => step_nil⟩
end

section
/-! The decoder and the encoder undo each other (spec/30_encoding.md R80 to R85). `encode_of_decode` and
`decode_of_encode` say which commands decode to an instruction: those of its word and of the sideband operands it reads. -/

namespace Sys2Proof

/-! ## Which commands decode, and to what -/

/-- The sideband operands that an instruction reads are those of the command (R81). -/
def SidebandOf (c : Command) : Instr → Prop
  | .rxb _ now => now = c.now
  | .poll now => now = c.now
  | .hret => True
  | .reg _ h => h = c.handler
  | .send _ none len => len = c.len
  | .send _ (some p) len => p = c.payload ∧ len = c.len
  | .setf _ _ => True
  | .setc _ => True
  | .rdstat _ => True

/-- The command that carries an instruction gives it the operands it reads. -/
theorem sidebandOf_encode (i : Instr) : SidebandOf (encode i) i := by
  cases i with
  | send t payload len => cases payload <;> simp [SidebandOf, encode]
  | _ => simp [SidebandOf, encode]

/-- A word is the packing of its own fields and of no others. -/
theorem eq_packFields_iff {w : CmdWord} {o : BitVec 4} {v : Bool} {i : BitVec 3} {a : Byte} :
    w = packFields o v i a ↔ (opcOf w).toNat = o.toNat ∧ vOf w = v ∧ idxOf w = i ∧ a8Of w = a := by
  constructor
  · rintro rfl
    simp
  · rintro ⟨ho, rfl, rfl, rfl⟩
    rw [← BitVec.eq_of_toNat_eq ho, packFields_fields]

/-- The word of what a command decodes to is the command's own, and the operands are its sideband's (R81, R82). -/
theorem encode_of_decode {c : Command} {i : Instr} (h : decode c = .ok i) :
    c.word = (encode i).word ∧ SidebandOf c i := by
  unfold decode at h
  dsimp only at h
  split at h
  case h_5 hopc =>
    obtain ⟨hzero, rfl⟩ := requireZero_eq_ok.1 h
    cases hv : vOf c.word <;>
      simpa [encode, SidebandOf, Command.ofWord, eq_packFields_iff, hopc, hv] using hzero
  case h_9 => cases h
  all_goals
    next hopc =>
      obtain ⟨hzero, rfl⟩ := requireZero_eq_ok.1 h
      simpa [encode, SidebandOf, Command.ofWord, eq_packFields_iff, hopc, and_assoc] using hzero

/-- The word of an instruction, with the sideband operands it reads, decodes to it. -/
theorem decode_of_encode {c : Command} {i : Instr} (hw : c.word = (encode i).word) (hs : SidebandOf c i) :
    decode c = .ok i := by
  cases i with
  | send t payload len => cases payload <;> simp_all [decode, encode, SidebandOf, Command.ofWord, requireZero]
  | _ => simp_all [decode, encode, SidebandOf, Command.ofWord, requireZero]

/-! ## Which words do not decode -/

/-- An illegal word in terms of its fields. -/
theorem illegalWord_iff {w : CmdWord} :
    Safety.IllegalWord w ↔
      (opcOf w).toNat = 0 ∨ 9 ≤ (opcOf w).toNat ∨ ((opcOf w).toNat ∈ [1, 2, 3, 4, 8] ∧ vOf w = true) ∨
        ((opcOf w).toNat ≠ 6 ∧ idxOf w ≠ 0) ∨ ((opcOf w).toNat ∈ [2, 3, 6, 7] ∧ a8Of w ≠ 0) := by
  have hidx : idxOf w = 0 ↔ w.toNat / 256 % 8 = 0 := by rw [← idxOf_toNat, BitVec.toNat_eq]; rfl
  have ha8 : a8Of w = 0 ↔ w.toNat % 256 = 0 := by rw [← a8Of_toNat, BitVec.toNat_eq]; rfl
  simp only [Safety.IllegalWord, opcOf_toNat, vOf_eq, ne_eq, hidx, ha8, decide_eq_true_eq, Nat.mod_two_ne_zero]

theorem requireZero_error_iff {o : BitVec 4} {z : Bool} {i : Instr} :
    (∃ e, requireZero o z i = .error e) ↔ z = false := by
  simp [requireZero_eq_error]

/-- The decoder refuses exactly the illegal words (R83, R84). -/
theorem decode_error_iff_illegalWord {c : Command} :
    (∃ e, decode c = .error e) ↔ Safety.IllegalWord c.word := by
  rw [illegalWord_iff]
  unfold decode
  dsimp only
  split
  case h_9 =>
    have hopc : (opcOf c.word).toNat = 0 ∨ 9 ≤ (opcOf c.word).toNat := by grind
    exact iff_of_true ⟨_, rfl⟩ (hopc.imp_right .inl)
  all_goals
    next hopc =>
      rw [requireZero_error_iff]
      simp only [Bool.and_eq_false_iff, Bool.not_eq_false', beq_eq_false_iff_ne, hopc]
      simp [or_assoc]

theorem not_illegalWord_of_decode {c : Command} {i : Instr} (h : decode c = .ok i) :
    ¬ Safety.IllegalWord c.word := by
  rw [← decode_error_iff_illegalWord, h]
  simp

/-! ## The rows of the opcode table -/

theorem packFields_and (o m : BitVec 4) (v n : Bool) (i j : BitVec 3) (a b : Byte) :
    packFields o v i a &&& packFields m n j b = packFields (o &&& m) (v && n) (i &&& j) (a &&& b) := by
  change (o ++ BitVec.ofBool v ++ i ++ a : BitVec (4 + 1 + 3 + 8)) &&& (m ++ BitVec.ofBool n ++ j ++ b) = _
  simp only [packFields, BitVec.and_append, BitVec.ofBool_and_ofBool]

/-- A word has the fixed bits of a row if and only if each of its fields has. -/
theorem and_packFields_eq_iff {w : CmdWord} {o m : BitVec 4} {v n : Bool} {i j : BitVec 3} {a b : Byte} :
    w &&& packFields m n j b = packFields o v i a ↔
      opcOf w &&& m = o ∧ (vOf w && n) = v ∧ idxOf w &&& j = i ∧ a8Of w &&& b = a := by
  conv_lhs => rw [← packFields_fields w, packFields_and, eq_packFields_iff]
  simp only [opcOf_packFields, vOf_packFields, idxOf_packFields, a8Of_packFields, BitVec.toNat_inj]

/-- The fields that a row fixes: OPC always, and of V, IDX and A8 those that its masks name. -/
theorem OpcodeRow.matches_iff {name : String} {o : BitVec 4} {v n : Bool} {i j : BitVec 3} {a b : Byte} {w : CmdWord} :
    OpcodeRow.Matches ⟨name, packFields 0xF n j b, packFields o v i a⟩ w ↔
      opcOf w = o ∧ (vOf w && n) = v ∧ idxOf w &&& j = i ∧ a8Of w &&& b = a := by
  rw [OpcodeRow.Matches, and_packFields_eq_iff, show (0xF : BitVec 4) = BitVec.allOnes 4 from rfl, BitVec.and_allOnes]

/-- The table with its masks and matches field by field. -/
theorem opcodeTable_eq_fields : opcodeTable =
    [⟨"RXB", packFields 0xF true 7 0, packFields 1 false 0 0⟩,
      ⟨"POLL", packFields 0xF true 7 0xFF, packFields 2 false 0 0⟩,
      ⟨"HRET", packFields 0xF true 7 0xFF, packFields 3 false 0 0⟩,
      ⟨"REG", packFields 0xF true 7 0, packFields 4 false 0 0⟩,
      ⟨"SEND", packFields 0xF false 7 0, packFields 5 false 0 0⟩,
      ⟨"SETF", packFields 0xF false 0 0xFF, packFields 6 false 0 0⟩,
      ⟨"SETC", packFields 0xF false 7 0xFF, packFields 7 false 0 0⟩,
      ⟨"RDSTAT", packFields 0xF true 7 0, packFields 8 false 0 0⟩] := by
  decide

/-- An encoded instruction matches its own row only: the rows differ in OPC. -/
theorem rows_matching_encode (i : Instr) :
    (opcodeTable.filter fun r => decide (r.Matches (encode i).word)).map OpcodeRow.mnemonic = [i.mnemonic] := by
  rw [opcodeTable_eq_fields]
  simp only [List.filter_cons, OpcodeRow.matches_iff]
  cases i
  all_goals simp [encode, Command.ofWord, Instr.mnemonic]

theorem and_idx_mask (x : BitVec 3) : x &&& 7#3 = x := BitVec.and_allOnes

theorem and_a8_mask (x : Byte) : x &&& 255#8 = x := BitVec.and_allOnes

/-- No row matches an illegal word: a row fixes at zero the fields that its opcode does. -/
theorem not_matches_of_illegalWord {w : CmdWord} (h : Safety.IllegalWord w) {r : OpcodeRow} (hr : r ∈ opcodeTable) :
    ¬ r.Matches w := by
  rw [illegalWord_iff] at h
  simp only [opcodeTable_eq_fields, List.mem_cons, List.not_mem_nil, or_false] at hr
  rcases hr with rfl | rfl | rfl | rfl | rfl | rfl | rfl | rfl
  all_goals
    rw [OpcodeRow.matches_iff]
    rintro ⟨hopc, hv, hidx, ha8⟩
    simp_all [and_idx_mask, and_a8_mask]

/-! ## The number of an instruction's word -/

/-- The command word of an instruction as the table of R89 writes it. -/
def Instr.number : Instr → Nat
  | .rxb b _ => 0x1000 + b.toNat
  | .poll _ => 0x2000
  | .hret => 0x3000
  | .reg t _ => 0x4000 + t.toNat
  | .send t (some _) _ => 0x5800 + t.toNat
  | .send t none _ => 0x5000 + t.toNat
  | .setf i v => 0x6000 + i.toNat * 0x100 + v.toNat * 0x800
  | .setc v => 0x7000 + v.toNat * 0x800
  | .rdstat s => 0x8000 + s.toNat

theorem toNat_encode (i : Instr) : (encode i).word.toNat = i.number := by
  cases i with
  | send t payload len => cases payload <;> simp [encode, Command.ofWord, packFields_toNat, Instr.number]
  | setf i v => simp [encode, Command.ofWord, packFields_toNat, Instr.number, Nat.add_right_comm]
  | _ => simp [encode, Command.ofWord, packFields_toNat, Instr.number]

theorem decode_of_number {c : Command} {i : Instr} (hw : c.word.toNat = i.number) (hs : SidebandOf c i) :
    decode c = .ok i :=
  decode_of_encode (BitVec.eq_of_toNat_eq (hw.trans (toNat_encode i).symm)) hs

end Sys2Proof

open Sys2Proof Sys2Proof.Machine Sys2Proof.Safety

/-- Settles O16: an encoded instruction's command has its word and the operands it reads. -/
theorem decodeOfEncodeIsTheInstruction : Obligations.DecodeOfEncodeIsTheInstruction :=
  fun i => decode_of_encode rfl (sidebandOf_encode i)

/-- Settles O17: the word is half of what decoding says of a command. -/
theorem encodeOfDecodeIsTheWord : Obligations.EncodeOfDecodeIsTheWord :=
  fun _ _ h => (encode_of_decode h).1.symm

/-- Settles O13: the decoder refuses an illegal word, and the refusal precedes every other check. -/
theorem illegalWordsChangeNothing : Obligations.IllegalWordsChangeNothing := by
  intro s c rest hi hw
  obtain ⟨e, he⟩ := decode_error_iff_illegalWord.2 hw
  exact ⟨_, (step_command hi).trans (runCommand_error he), rfl⟩

/-- Settles O14: a word that decodes is an encoded one, which matches its own row only; one that does not is illegal,
and no row matches it. -/
theorem everyWordMatchesOneRowOrIsIllegal : Obligations.EveryWordMatchesOneRowOrIsIllegal := by
  intro c
  refine ⟨fun i h => ⟨not_illegalWord_of_decode h, ?_⟩, fun e h => ?_⟩
  · rw [(encode_of_decode h).1]
    exact rows_matching_encode i
  · have hw : IllegalWord c.word := decode_error_iff_illegalWord.1 ⟨e, h⟩
    refine ⟨hw, List.filter_eq_nil_iff.2 fun r hr => ?_⟩
    simpa using not_matches_of_illegalWord hw hr

/-- Settles O15: each number is that of an instruction of the row, whose operands are the command's sideband. -/
theorem eachRowTakesItsOperandsOnly : Obligations.EachRowTakesItsOperandsOnly := by
  intro c
  exact ⟨fun b h => decode_of_number (i := .rxb b c.now) h rfl,
    fun h => decode_of_number (i := .poll c.now) h rfl,
    fun h => decode_of_number (i := .hret) h trivial,
    fun t h => decode_of_number (i := .reg t c.handler) h rfl,
    fun t h => decode_of_number (i := .send t (some c.payload) c.len) h ⟨rfl, rfl⟩,
    fun t h => decode_of_number (i := .send t none c.len) h rfl,
    fun i v h => decode_of_number (i := .setf i v) h trivial,
    fun v h => decode_of_number (i := .setc v) h trivial,
    fun s h => decode_of_number (i := .rdstat s) h trivial⟩

/-- Settles O18: each word is evaluated. -/
theorem writtenOutWordsDecode : Obligations.WrittenOutWordsDecode := by
  unfold Obligations.WrittenOutWordsDecode
  decide
end

section
/-! The assembler's operands and the words of assembled lines (spec/30_encoding.md R89, R91). -/

namespace Sys2Proof.Machine

open Sys2Proof

/-! ## The operands: a number that fits, and one that does not -/

theorem asmByte_of_lt {n : Nat} (h : n < 256) : asmByte n = some (BitVec.ofNat 8 n) := if_pos h

theorem asmByte_of_ge {n : Nat} (h : 256 ≤ n) : asmByte n = none := if_neg (by omega)

theorem asmIndex_of_lt {n : Nat} (h : n < 8) : asmIndex n = some (BitVec.ofNat 3 n) := if_pos h

theorem asmIndex_of_ge {n : Nat} (h : 8 ≤ n) : asmIndex n = none := if_neg (by omega)

theorem asmBit_of_lt {n : Nat} (h : n < 2) : asmBit n = some (decide (n = 1)) := if_pos h

theorem asmBit_of_ge {n : Nat} (h : 2 ≤ n) : asmBit n = none := if_neg (by omega)

theorem asmByte_toNat (b : Byte) : asmByte b.toNat = some b := by
  rw [asmByte_of_lt b.isLt, BitVec.ofNat_toNat, BitVec.setWidth_eq]

theorem asmBytes_map_toNat (p : List Byte) : asmBytes (p.map BitVec.toNat) = some p := by
  induction p with
  | nil => rfl
  | cons b p ih => simp [asmBytes, asmByte_toNat, ih]

theorem toNat_decide_eq_one {n : Nat} (h : n < 2) : (decide (n = 1)).toNat = n := by
  obtain rfl | rfl : n = 0 ∨ n = 1 := by omega
  · rfl
  · rfl

/-! ## The lines -/

theorem assemble_rxb {b : Nat} (h : b < 256) (now : Nat) :
    assemble (.rxb b now) = some (.command (.rxb (BitVec.ofNat 8 b) now)) := by
  simp [assemble, asmByte_of_lt h]

theorem assemble_reg {t : Nat} (h : t < 256) (hd : HandlerId) :
    assemble (.reg t hd) = some (.command (.reg (BitVec.ofNat 8 t) hd)) := by
  simp [assemble, asmByte_of_lt h]

theorem assemble_send {t : Nat} (h : t < 256) (p : List Byte) (len : Nat) :
    assemble (.send t (some (p.map BitVec.toNat)) len) = some (.command (.send (BitVec.ofNat 8 t) (some p) len)) := by
  simp [assemble, asmByte_of_lt h, asmPayload, asmBytes_map_toNat]

theorem assemble_send_absent {t : Nat} (h : t < 256) (len : Nat) :
    assemble (.send t none len) = some (.command (.send (BitVec.ofNat 8 t) none len)) := by
  simp [assemble, asmByte_of_lt h, asmPayload]

theorem assemble_setf {k v : Nat} (hk : k < 8) (hv : v < 2) :
    assemble (.setf k v) = some (.command (.setf (BitVec.ofNat 3 k) (decide (v = 1)))) := by
  simp [assemble, asmIndex_of_lt hk, asmBit_of_lt hv]

theorem assemble_setf_error {k v : Nat} (h : 8 ≤ k ∨ 2 ≤ v) : assemble (.setf k v) = none := by
  rcases h with hk | hv
  · simp [assemble, asmIndex_of_ge hk]
  · cases hi : asmIndex k <;> simp [assemble, hi, asmBit_of_ge hv]

theorem assemble_setc {v : Nat} (h : v < 2) : assemble (.setc v) = some (.command (.setc (decide (v = 1)))) := by
  simp [assemble, asmBit_of_lt h]

theorem assemble_rdstat {s : Nat} (h : s < 256) :
    assemble (.rdstat s) = some (.command (.rdstat (BitVec.ofNat 8 s))) := by
  simp [assemble, asmByte_of_lt h]

end Sys2Proof.Machine

open Sys2Proof Sys2Proof.Machine

/-- Settles O19: a line whose numbers fit stands for the instruction of those operands, whose word has the table's
number; a number that does not fit leaves no operand. -/
theorem assembledLinesHaveTheTablesWords : Obligations.AssembledLinesHaveTheTablesWords := by
  have byte {n : Nat} (h : n < 256) : (BitVec.ofNat 8 n).toNat = n := Nat.mod_eq_of_lt h
  simp only [Obligations.AssembledLinesHaveTheTablesWords, toNat_encode]
  refine ⟨?rxb, fun now => ⟨_, rfl, rfl, rfl⟩, ⟨_, rfl, rfl⟩, ?reg, ?send, ?setf, ?setc, ?rdstat, ?sendz, ?clrf,
    rfl, rfl⟩
  case rxb =>
    refine fun b now => ⟨fun h => ⟨_, assemble_rxb h now, congrArg (0x1000 + ·) (byte h), rfl⟩, fun h => ?_⟩
    simp [assemble, asmByte_of_ge h]
  case reg =>
    refine fun t hd => ⟨fun h => ⟨_, assemble_reg h hd, congrArg (0x4000 + ·) (byte h), rfl⟩, fun h => ?_⟩
    simp [assemble, asmByte_of_ge h]
  case send =>
    refine fun t len p => ⟨fun h => ⟨⟨_, assemble_send h p len, congrArg (0x5800 + ·) (byte h), rfl, rfl⟩,
      _, assemble_send_absent h len, congrArg (0x5000 + ·) (byte h), rfl⟩, fun h q => ?_⟩
    simp [assemble, asmByte_of_ge h]
  case setf =>
    refine fun k v => ⟨fun ⟨hk, hv⟩ => ⟨_, assemble_setf hk hv, ?_⟩, assemble_setf_error⟩
    simp [Instr.number, Nat.mod_eq_of_lt hk, toNat_decide_eq_one hv]
  case setc =>
    refine fun v => ⟨fun h => ⟨_, assemble_setc h, ?_⟩, fun h => ?_⟩
    · simp [Instr.number, toNat_decide_eq_one h]
    · simp [assemble, asmBit_of_ge h]
  case rdstat =>
    refine fun s => ⟨fun h => ⟨_, assemble_rdstat h, congrArg (0x8000 + ·) (byte h)⟩, fun h => ?_⟩
    simp [assemble, asmByte_of_ge h]
  case sendz =>
    intro t
    cases h : asmByte t <;> simp [assemble, h, asmPayload]
  case clrf =>
    intro i
    cases h : asmIndex i <;> simp [assemble, h, asmBit_of_lt]
end

section
/-! Every command gives exactly one response (spec/30_encoding.md R86). `Answered` says what the four kinds of response
leave of the state. -/

namespace Sys2Proof

/-- OPC of an instruction's row (R82). -/
def Instr.opcode : Instr → Nat
  | .rxb _ _ => 1
  | .poll _ => 2
  | .hret => 3
  | .reg _ _ => 4
  | .send _ _ _ => 5
  | .setf _ _ => 6
  | .setc _ => 7
  | .rdstat _ => 8

theorem opcode_encode (i : Instr) : (encode i).word.toNat / 4096 = i.opcode := by
  rw [← opcOf_toNat]
  cases i
  all_goals simp [encode, Command.ofWord, Instr.opcode]

theorem opcode_of_decode {c : Command} {i : Instr} (h : decode c = .ok i) : c.word.toNat / 4096 = i.opcode := by
  rw [(encode_of_decode h).1, opcode_encode]

end Sys2Proof

namespace Sys2Proof.Machine

open Sys2Proof

/-- What an instruction answered: OK with its events, or a refusal, a fault or a value, which leave the state as it was but
for the output and the fault. RXB and POLL, the receive commands, refuse when faulted only and fault as REENTRANT only. -/
inductive Answered (i : Instr) (s t : State) : Prop
  | ok (evs : List Event) (outputs : t.outputs = s.outputs ++ [⟨.ok, evs⟩])
  | refused (e : ErrCode) (eq : t = s.refuse e) (receive : i.opcode = 1 ∨ i.opcode = 2 → e = .faulted)
  | faulted (f : FaultCode) (eq : t = s.raise f) (receive : i.opcode = 1 ∨ i.opcode = 2 → f = .reentrant)
  | value (v : Word32) (eq : t = s.respond (.val v)) (rdstat : i.opcode = 8)

/-- The refusal that precedes every command's work but RDSTAT's (60_exceptions.md R234). -/
theorem Answered.refuse_faulted (i : Instr) (s : State) : Answered i s (s.refuse .faulted) :=
  .refused .faulted rfl fun _ => rfl

/-- The fault of the commands that may not come while a handler runs (60_exceptions.md R233). -/
theorem Answered.raise_reentrant (i : Instr) (s : State) : Answered i s (s.raise .reentrant) :=
  .faulted .reentrant rfl fun _ => rfl

/-! ## What follows an append answers OK (60_exceptions.md R220) -/

theorem State.resync_outputs (s : State) (cause : DropCause) :
    ∃ evs, (s.resync cause).outputs = s.outputs ++ [⟨.ok, evs⟩] := by
  rcases s.resync_cases cause with ⟨i, -, h⟩ | ⟨-, h⟩
  · exact ⟨[.drop cause (.shift i)], by simp [h]⟩
  · exact ⟨[.drop cause .empty], by simp [h]⟩

theorem State.complete_outputs {s t : State} {ty : Byte} (h : s.complete ty = .next t) :
    ∃ evs, t.outputs = s.outputs ++ [⟨.ok, evs⟩] := by
  rcases State.complete_next h with ⟨hd, -, rfl⟩ | ⟨-, rfl⟩
  · exact ⟨_, State.deliver_outputs s hd⟩
  · exact ⟨_, State.dropUnregistered_outputs s ty⟩

theorem State.afterAppend_outputs {s t : State} (h : s.afterAppend = .next t) :
    ∃ evs, t.outputs = s.outputs ++ [⟨.ok, evs⟩] := by
  rcases State.afterAppend_next h with ⟨-, rfl⟩ | ⟨-, -, rfl⟩ | ⟨-, -, -, rfl⟩ | ⟨-, -, -, -, rfl⟩ | ⟨-, -, -, -, h⟩
  · exact s.resync_outputs .framing
  · exact ⟨_, State.respond_outputs s .ok []⟩
  · simpa using (s.bump .checksum).resync_outputs .checksum
  · simpa using (s.bump .unkType).resync_outputs .unknownType
  · exact State.complete_outputs h

/-! ## The instructions -/

theorem answered_execRxb {b : Byte} {now : Nat} {s t : State} (h : execRxb b now s = .next t) :
    Answered (.rxb b now) s t := by
  rcases execRxb_next h with ⟨-, rfl⟩ | ⟨-, -, rfl⟩ | ⟨-, -, u, hu, h⟩
  · exact .refuse_faulted _ s
  · exact .raise_reentrant _ s
  · obtain ⟨evs, hevs⟩ := State.afterAppend_outputs h
    obtain ⟨-, rfl⟩ := State.append_eq_some.1 hu
    exact .ok evs (by simpa using hevs)

theorem answered_execPoll {now : Nat} {s t : State} (h : execPoll now s = .next t) : Answered (.poll now) s t := by
  rcases execPoll_next h with ⟨-, rfl⟩ | ⟨-, -, rfl⟩ | ⟨-, -, -, rfl⟩ | ⟨-, -, -, rfl⟩
  · exact .refuse_faulted _ s
  · exact .raise_reentrant _ s
  · exact .ok _ (State.discardPartial_outputs s)
  · exact .ok _ (State.respond_outputs s .ok [])

theorem answered_execHret {s t : State} (h : execHret s = .next t) : Answered .hret s t := by
  rcases execHret_next h with ⟨-, rfl⟩ | ⟨-, -, rfl⟩ | ⟨-, -, rfl⟩
  · exact .refuse_faulted _ s
  · exact .ok _ (State.endDispatch_outputs s)
  · exact .refused .notDispatching rfl (by simp [Instr.opcode])

theorem answered_execReg {ty : Byte} {hd : HandlerId} {s t : State} (h : execReg ty hd s = .next t) :
    Answered (.reg ty hd) s t := by
  rcases execReg_next h with ⟨-, rfl⟩ | ⟨-, -, -, rfl⟩ | ⟨-, -, rfl⟩
  · exact .refuse_faulted _ s
  · exact .ok [] rfl
  · exact .refused .typeRange rfl (by simp [Instr.opcode])

theorem answered_execSend {ty : Byte} {payload : Option (List Byte)} {len : Nat} {s t : State}
    (h : execSend ty payload len s = .next t) : Answered (.send ty payload len) s t := by
  rcases execSend_next h with ⟨-, rfl⟩ | ⟨-, -, rfl⟩ | ⟨-, -, -, rfl⟩ | ⟨-, -, -, rfl⟩
  · exact .refuse_faulted _ s
  · exact .raise_reentrant _ s
  · exact .faulted .payloadShort rfl (by simp [Instr.opcode])
  · exact .ok _ (State.transmit_outputs s _)

theorem answered_execSetf {i : BitVec 3} {v : Bool} {s t : State} (h : execSetf i v s = .next t) :
    Answered (.setf i v) s t := by
  rcases execSetf_next h with ⟨-, rfl⟩ | ⟨-, -, rfl⟩ | ⟨-, -, rfl⟩
  · exact .refuse_faulted _ s
  · exact .ok [] rfl
  · exact .refused .flagIndex rfl (by simp [Instr.opcode])

theorem answered_execSetc {v : Bool} {s t : State} (h : execSetc v s = .next t) : Answered (.setc v) s t := by
  rcases execSetc_next h with ⟨-, rfl⟩ | ⟨-, rfl⟩
  · exact .refuse_faulted _ s
  · exact .ok [] rfl

theorem answered_execRdstat {sel : Byte} {s t : State} (h : execRdstat sel s = .next t) :
    Answered (.rdstat sel) s t := by
  obtain ⟨r, hr, hcases⟩ := execRdstat_eq sel s
  cases hr.symm.trans h
  rcases hcases with ⟨-, rfl⟩ | ⟨-, rfl⟩ | ⟨n, -, -, rfl⟩ | ⟨n, -, -, rfl⟩
  · exact .value _ rfl rfl
  · exact .refused .select rfl (by simp [Instr.opcode])
  · exact .value _ rfl rfl
  · exact .refused .noCounters rfl (by simp [Instr.opcode])

theorem answered_exec {i : Instr} {s t : State} (h : exec i s = .next t) : Answered i s t := by
  cases i with
  | rxb b now => exact answered_execRxb h
  | poll now => exact answered_execPoll h
  | hret => exact answered_execHret h
  | reg ty hd => exact answered_execReg h
  | send ty payload len => exact answered_execSend h
  | setf k v => exact answered_execSetf h
  | setc v => exact answered_execSetc h
  | rdstat sel => exact answered_execRdstat h

end Sys2Proof.Machine

open Sys2Proof Sys2Proof.Machine

/-- Settles O7: an illegal word is refused, and what decodes has one of the four kinds of answer. -/
theorem everyCommandGivesOneResponse : Obligations.EveryCommandGivesOneResponse := by
  intro s t c rest hi hstep
  rw [step_command hi] at hstep
  cases hd : decode c with
  | error e =>
    cases (runCommand_error hd).symm.trans hstep
    exact ⟨⟨.err .illegal, []⟩, by simp [State.refuse, State.respond]⟩
  | ok i =>
    rw [opcode_of_decode hd]
    rcases answered_exec ((runCommand_ok hd).symm.trans hstep) with
      ⟨evs, houtputs⟩ | ⟨e, rfl, hreceive⟩ | ⟨f, rfl, hreceive⟩ | ⟨v, rfl, hrdstat⟩
    · exact ⟨⟨.ok, evs⟩, houtputs, by simp⟩
    · exact ⟨⟨.err e, []⟩, rfl, fun _ _ => ⟨rfl, rfl⟩, by simp, by simp, fun hop => by simp [hreceive hop]⟩
    · refine ⟨⟨.fault f, []⟩, rfl, by simp, fun f' hf => ?_, by simp, fun hop => by simp [hreceive hop]⟩
      cases hf
      exact ⟨rfl, rfl⟩
    · exact ⟨⟨.val v, []⟩, rfl, by simp, by simp, fun _ _ => ⟨hrdstat, rfl⟩, by simp [hrdstat]⟩

/-- Settles O46: each code is that of its own line of the table. -/
theorem responseCodesAreTheTables : Obligations.ResponseCodesAreTheTables :=
  ⟨rfl, fun _ => rfl, rfl, rfl, rfl, rfl, rfl, rfl, rfl, rfl, rfl⟩
end

section
/-! The checksum bytes of built and of received frames (spec/30_encoding.md R79). -/

namespace Sys2Proof.Machine

open Sys2Proof

/-- The last two bytes of a built frame are its checksum bytes (30_encoding.md R70). -/
theorem buildFrame_checksum {c : Config} {flags ty : Byte} {payload : Option (List Byte)} {len : Nat}
    (h : payloadTooShort c payload len = false) :
    (buildFrame c flags ty payload len)[c.payloadCap + 3]? =
        some (BitVec.ofNat 8 (fletcher (coveredBytes c flags ty payload len)).1) ∧
      (buildFrame c flags ty payload len)[c.payloadCap + 4]? =
        some (BitVec.ofNat 8 (fletcher (coveredBytes c flags ty payload len)).2) := by
  simp [buildFrame, checksumBytes, coveredBytes_length h]

end Sys2Proof.Machine

open Sys2Proof Sys2Proof.Machine

/-- Settles O41: both sums are below 255, so neither checksum byte is 0xFF, and a verified frame holds the sums. -/
theorem checksumByteFFNeverPasses : Obligations.ChecksumByteFFNeverPasses := by
  refine ⟨fun c flags ty payload len b hshort hb => ?_, fun n f hff => ?_⟩
  · obtain ⟨hsum1, hsum2⟩ := fletcher_lt (coveredBytes c flags ty payload len)
    obtain ⟨h3, h4⟩ := buildFrame_checksum (flags := flags) (ty := ty) hshort
    rw [h3, h4] at hb
    rcases hb with hb | hb
    · cases hb
      rw [toNat_ofNat_of_lt_255 hsum1]
      omega
    · cases hb
      rw [toNat_ofNat_of_lt_255 hsum2]
      omega
  · by_contra hv
    obtain ⟨x, y, hx, hy, hsums⟩ := (verify_iff n f).1 (by simpa using hv)
    obtain ⟨hsum1, hsum2⟩ := fletcher_lt (f.take (n + 3))
    rw [hx, hy] at hff
    rw [hsums] at hsum1 hsum2
    rcases hff with hff | hff
    · cases hff
      exact absurd (show (0xFF : Byte).toNat < 255 from hsum1) (by decide)
    · cases hff
      exact absurd (show (0xFF : Byte).toNat < 255 from hsum2) (by decide)
end

section
/-! Cutting the bytes of an UPDATE (spec/30_encoding.md R90, spec/41_framing.md R138). -/

namespace Sys2Proof.Machine

open Sys2Proof

/-- The bytes of an UPDATE are drained one after another, so what is left continues from where a first part ends. -/
theorem drain_append {code : HandlerCode} {now : Nat} {xs : List Byte} (ys : List Byte) {s t : State}
    (h : drain code now xs s = .next t) : drain code now (xs ++ ys) s = drain code now ys t := by
  induction xs generalizing s with
  | nil => cases h; rfl
  | cons b xs ih =>
    simp only [List.cons_append, drain] at h ⊢
    split at h
    · next u hu =>
      split at h
      · next v hv => simpa [hu, hv] using ih h
      · cases h
      · cases h
    · cases h
    · cases h

/-- An UPDATE with a byte to drain issues no POLL. -/
theorem update_of_ne_nil (code : HandlerCode) (now : Nat) {bytes : List Byte} (h : bytes ≠ []) (s : State) :
    update code now bytes s = drain code now bytes s := by
  cases bytes with
  | nil => exact absurd rfl h
  | cons b rest => rfl

end Sys2Proof.Machine

open Sys2Proof Sys2Proof.Machine

/-- Settles O53: neither part is empty, so no part issues a POLL and the drained bytes may be cut. -/
theorem updateMayBeCutAnywhere : Obligations.UpdateMayBeCutAnywhere := by
  refine ⟨fun _ _ _ => rfl, fun code now xs ys s t hxs hys h => ?_⟩
  rw [update_of_ne_nil code now hxs] at h
  rw [update_of_ne_nil code now (List.append_ne_nil_of_left_ne_nil hxs ys), update_of_ne_nil code now hys,
    drain_append ys h]
end

section
/-! The closed form of both Fletcher sums, and what a changed byte does to them (spec/40_checksum.md R103, R104, R106). -/

namespace Sys2Proof.Machine

open Sys2Proof

/-- The sum of the bytes: sum1 before the reduction mod 255 (R103). -/
def byteSum (s : List Byte) : Nat := (s.map BitVec.toNat).sum

/-- The sum of the bytes with weights n, n - 1, ..., 1: sum2 before the reduction mod 255 (R103). -/
def weightedSum (s : List Byte) : Nat := (s.mapIdx fun k b => (s.length - k) * b.toNat).sum

@[simp] theorem byteSum_nil : byteSum [] = 0 := rfl

@[simp] theorem byteSum_cons (b : Byte) (s : List Byte) : byteSum (b :: s) = b.toNat + byteSum s := rfl

@[simp] theorem byteSum_concat (s : List Byte) (b : Byte) : byteSum (s ++ [b]) = byteSum s + b.toNat := by
  simp [byteSum]

@[simp] theorem weightedSum_nil : weightedSum [] = 0 := rfl

/-- A byte in front gets the greatest weight, and the others keep theirs. -/
@[simp] theorem weightedSum_cons (b : Byte) (s : List Byte) :
    weightedSum (b :: s) = (s.length + 1) * b.toNat + weightedSum s := by
  simp [weightedSum, List.mapIdx_cons]

/-- A byte at the end gets the weight 1, and each weight before it grows by 1. -/
theorem weightedSum_concat (s : List Byte) (b : Byte) :
    weightedSum (s ++ [b]) = weightedSum s + byteSum s + b.toNat := by
  induction s with
  | nil => simp
  | cons c s ih =>
    simp only [List.cons_append, weightedSum_cons, byteSum_cons, List.length_append, List.length_singleton, ih]
    ring

theorem fletcher_eq_sums_mod (s : List Byte) : fletcher s = (byteSum s % 255, weightedSum s % 255) := by
  induction s using List.reverseRecOn with
  | nil => rfl
  | append_singleton s b ih =>
    rw [fletcher_concat, ih, byteSum_concat, weightedSum_concat]
    ext <;> simp only [fletcherStep] <;> omega

/-- Both bytes add the same mod 255, from any sums. -/
theorem fletcherStep_zero_eq_FF (sums : Nat × Nat) : fletcherStep sums 0x00 = fletcherStep sums 0xFF := by
  have hsum1 : (sums.1 + (0x00 : Byte).toNat) % 255 = (sums.1 + (0xFF : Byte).toNat) % 255 :=
    (Nat.add_mod_right sums.1 255).symm
  simp only [fletcherStep, hsum1]

/-- Replacing one summand moves the sum by their difference. -/
theorem sum_set_add {l : List Nat} {k a : Nat} (h : l[k]? = some a) (c : Nat) :
    (l.set k c).sum + a = l.sum + c := by
  induction l generalizing k with
  | nil => cases h
  | cons d l ih =>
    cases k with
    | zero => cases h; simp only [List.set_cons_zero, List.sum_cons]; omega
    | succ k => simp only [List.set_cons_succ, List.sum_cons, Nat.add_assoc, ih h]

theorem byteSum_set_add {s : List Byte} {k : Nat} {x : Byte} (h : s[k]? = some x) (z : Byte) :
    byteSum (s.set k z) + x.toNat = byteSum s + z.toNat := by
  rw [byteSum, List.map_set]
  exact sum_set_add (by simp [h]) _

theorem weightedSum_set_add {s : List Byte} {k : Nat} {x : Byte} (h : s[k]? = some x) (z : Byte) :
    weightedSum (s.set k z) + (s.length - k) * x.toNat = weightedSum s + (s.length - k) * z.toNat := by
  rw [weightedSum, List.mapIdx_set, List.length_set]
  exact sum_set_add (by simp [h]) _

section Swap

variable {s : List Byte} {j k : Nat} {x y : Byte} (hjk : j < k) (hj : s[j]? = some x) (hk : s[k]? = some y)

include hjk hk in
theorem getElem?_set_of_lt : (s.set j y)[k]? = some y := by
  rw [List.getElem?_set_ne hjk.ne, hk]

include hjk hj hk

theorem byteSum_swap : byteSum ((s.set j y).set k x) = byteSum s := by
  have hfirst := byteSum_set_add hj y
  have hsecond := byteSum_set_add (getElem?_set_of_lt hjk hk) x
  omega

/-- The two weights differ by k - j, so the swap moves the weighted sum by that times the bytes' difference (R103). -/
theorem weightedSum_swap :
    (weightedSum ((s.set j y).set k x) : Int) =
      weightedSum s + ((k : Int) - j) * ((y.toNat : Int) - x.toNat) := by
  have hfirst := weightedSum_set_add hj y
  have hsecond := weightedSum_set_add (getElem?_set_of_lt hjk hk) x
  obtain ⟨hlen, _⟩ := List.getElem?_eq_some_iff.1 hk
  rw [List.length_set] at hsecond
  zify [hlen.le, (hjk.trans hlen).le] at hfirst hsecond
  linear_combination hfirst + hsecond

end Swap

end Sys2Proof.Machine

open Sys2Proof Sys2Proof.Machine

/-- Settles O47, by induction on the sequence from its end, where each round of the checksum adds. -/
theorem fletcherHasTheClosedForm : Obligations.FletcherHasTheClosedForm :=
  fun s => Prod.ext_iff.1 (fletcher_eq_sums_mod s)

/-- Settles O48: the rounds before the byte and after it are the same, and its own round does not tell 0x00 from 0xFF. -/
theorem fletcherCannotTellZeroFromFF : Obligations.FletcherCannotTellZeroFromFF := by
  intro s k h
  obtain ⟨hk, hzero⟩ := List.getElem?_eq_some_iff.1 h
  have hsplit : s = s.take k ++ 0x00 :: s.drop (k + 1) := by
    rw [← hzero, List.getElem_cons_drop, List.take_append_drop]
  calc fletcher (s.set k 0xFF)
      = fletcher (s.take k ++ 0xFF :: s.drop (k + 1)) := by rw [List.set_eq_take_append_cons_drop, if_pos hk]
    _ = fletcher (s.take k ++ 0x00 :: s.drop (k + 1)) := by
      rw [fletcher_append, fletcher_append, List.foldl_cons, List.foldl_cons, fletcherStep_zero_eq_FF]
    _ = fletcher s := by rw [← hsplit]

/-- Settles O49, by the closed form: the sum of the bytes stays, the weighted sum moves as R103 says. -/
theorem fletcherSeesASwap : Obligations.FletcherSeesASwap := by
  intro s j k x y hjk hj hk
  simp only [fletcher_eq_sums_mod]
  refine ⟨by rw [byteSum_swap hjk hj hk], ?_⟩
  push_cast
  rw [Int.emod_emod, weightedSum_swap hjk hj hk, Int.emod_add_emod]

/-- Settles O50: the checksum bytes stand at offsets P + 3 and P + 4, right behind the bytes they cover. -/
theorem verifyComparesBothBytes : Obligations.VerifyComparesBothBytes := by
  intro covered x y h
  have hx : (covered ++ [x, y])[covered.length]? = some x := by simp
  have hy : (covered ++ [x, y])[covered.length + 1]? = some y := by simp
  rw [verify_iff, show covered.length - 3 + 4 = covered.length + 1 by omega, Nat.sub_add_cancel h, hx, hy,
    List.take_left]
  constructor
  · rintro ⟨_, _, ⟨⟩, ⟨⟩, hsums⟩
    exact hsums
  · exact fun hsums => ⟨x, y, rfl, rfl, hsums⟩
end

section
/-! How to show the two clauses that most statements about a command have: which counters grow (spec/44_status.md R200)
and what is given back (spec/30_encoding.md R86, R88). -/

namespace Sys2Proof.Safety

open Sys2Proof Sys2Proof.Machine

theorem counts_of_counters_eq {s t : State} (h : t.counters = s.counters) : Counts s t [] := by
  intro n
  simp [h]

/-- An increment adds its counter to those that have grown. -/
theorem Counts.bump {s u t : State} {ns : List CounterName} {m : CounterName} (h : Counts s u ns)
    (hcfg : u.cfg = s.cfg) (hm : m ∉ ns) (ht : t.counters = (u.bump m).counters) : Counts s t (ns ++ [m]) := by
  intro n
  rw [ht, State.bump_get, h n, hcfg]
  by_cases hn : n = m
  · subst hn; simp [hm]
  · simp [hn]

theorem counts_of_bump {s u t : State} {m : CounterName} (hcounters : u.counters = s.counters) (hcfg : u.cfg = s.cfg)
    (ht : t.counters = (u.bump m).counters) : Counts s t [m] :=
  (counts_of_counters_eq hcounters).bump hcfg List.not_mem_nil ht

theorem gives_of_outputs {s t : State} {r : Response} {evs : List Event} (h : t.outputs = s.outputs ++ [⟨r, evs⟩]) :
    Gives s t r evs :=
  ⟨⟨r, evs⟩, h, rfl, rfl, fun _ => rfl⟩

end Sys2Proof.Safety
end

section
/-! The clock operand and the elapsed time as numbers, and POLL's two outcomes (spec/41_framing.md R135 to R137). -/

namespace Sys2Proof.Safety

open Sys2Proof Sys2Proof.Machine

theorem clockValue_eq_mod (c : Config) (now : Nat) : clockValue c now = now % 2 ^ c.clockWidth :=
  BitVec.toNat_ofNat now c.clockWidth

theorem elapsed_eq_mod (c : Config) (now : Nat) {start : Nat} (h : start < 2 ^ c.clockWidth) :
    elapsed c now start = (now + (2 ^ c.clockWidth - start)) % 2 ^ c.clockWidth := by
  rw [elapsed, BitVec.toNat_sub, BitVec.toNat_ofNat, BitVec.toNat_ofNat, Nat.mod_eq_of_lt h, Nat.add_mod_mod,
    Nat.add_comm]

theorem exec_poll_timedOut {s : State} {now : Nat} (hf : s.fault = none) (hp : s.phase ≠ .dispatching)
    (ht : s.timedOut now = true) : exec (.poll now) s = .next s.discardPartial := by
  rw [exec, execPoll, unlessFaulted_none hf, unlessDispatching_other hp, if_pos ht]

theorem exec_poll_quiet {s : State} {now : Nat} (hf : s.fault = none) (hp : s.phase ≠ .dispatching)
    (ht : s.timedOut now = false) : exec (.poll now) s = .next (s.respond .ok) := by
  rw [exec, execPoll, unlessFaulted_none hf, unlessDispatching_other hp, if_neg (by simp [ht])]

end Sys2Proof.Safety

open Sys2Proof Sys2Proof.Machine Sys2Proof.Safety

/-- Settles O32: POLL's test holds, and the discard is read off field by field. -/
theorem pollDiscardsAStalledFrame : Obligations.PollDiscardsAStalledFrame := by
  intro s now hf hp hts helapsed
  have ht : s.timedOut now = true := by
    simpa [State.timedOut, hp, elapsed_eq_mod _ now hts] using helapsed
  refine ⟨_, exec_poll_timedOut hf (by simp [hp]) ht, ?_⟩
  refine ⟨by simp, by simp, by simp, by simp, by simp [KeepsRest], ?_, gives_of_outputs (by simp)⟩
  exact counts_of_bump (u := s) rfl rfl (by simp)

/-- Settles O33: POLL's test fails on its phase in Idle and on its time in Accumulating. -/
theorem pollOtherwiseChangesNothing : Obligations.PollOtherwiseChangesNothing := by
  intro s now hf hts hcase
  obtain ⟨hp, ht⟩ : s.phase ≠ .dispatching ∧ s.timedOut now = false := by
    rcases hcase with hp | ⟨hp, helapsed⟩
    · simp [State.timedOut, hp]
    · simpa [State.timedOut, hp, elapsed_eq_mod _ now hts] using helapsed
  exact ⟨_, exec_poll_quiet hf hp ht, rfl⟩

/-- Settles O34: the start cancels in the modular difference. -/
theorem elapsedTimeIsExactAcrossTheWrap : Obligations.ElapsedTimeIsExactAcrossTheWrap := by
  intro c start d hd
  have hsum : BitVec.ofNat c.clockWidth ((start + d) % 2 ^ c.clockWidth) =
      BitVec.ofNat c.clockWidth d + BitVec.ofNat c.clockWidth (start % 2 ^ c.clockWidth) := by
    apply BitVec.eq_of_toNat_eq
    simp [Nat.add_comm]
  rw [elapsed, hsum, BitVec.add_sub_cancel, BitVec.toNat_ofNat, Nat.mod_eq_of_lt hd]
end

section
/-! The copying loop of a resynchronization (spec/41_framing.md R130) against the model's shift (R132). -/

namespace Sys2Proof.Safety

open Sys2Proof Sys2Proof.Machine

/-- After n rounds the first n bytes are those that stood i offsets later; the loop reads each byte before it writes
there, so a round never moves a byte already moved. -/
theorem shiftLoop_getElem? {i n : Nat} {buf : List Byte} (h : n + i ≤ buf.length) (k : Nat) :
    (shiftLoop i n buf)[k]? = if k < n then buf[k + i]? else buf[k]? := by
  induction n generalizing k with
  | zero => simp [shiftLoop]
  | succ n ih =>
    have ih := ih (by omega)
    have hread : (shiftLoop i n buf)[n + i]? = some buf[n + i] := by
      rw [ih, if_neg (by omega), List.getElem?_eq_getElem]
    have hlen : n < (shiftLoop i n buf).length := by
      obtain ⟨hlt, -⟩ := List.getElem?_eq_some_iff.1 hread
      omega
    simp only [shiftLoop, hread]
    rcases Nat.lt_trichotomy k n with hk | rfl | hk
    · rw [List.getElem?_set_ne hk.ne', ih, if_pos hk, if_pos (by omega)]
    · rw [List.getElem?_set_self hlen, if_pos (by omega), List.getElem?_eq_getElem]
    · rw [List.getElem?_set_ne hk.ne, ih, if_neg (by omega), if_neg (by omega)]

end Sys2Proof.Safety

open Sys2Proof Sys2Proof.Machine Sys2Proof.Safety

/-- Settles O31: both buffers hold the same byte at every offset, moved below the new count and kept from there on. -/
theorem shiftMovesBytesAsTheLoopDoes : Obligations.ShiftMovesBytesAsTheLoopDoes := by
  intro s i hi hc
  refine ⟨?_, rfl, fun k hk => State.shiftBuf_getElem?_lt hc hk, fun k hk => State.shiftBuf_getElem?_ge hc hk⟩
  refine List.ext_getElem? fun k => ?_
  rw [shiftLoop_getElem? (by omega)]
  split
  · next hk => exact State.shiftBuf_getElem?_lt hc hk
  · next hk => exact State.shiftBuf_getElem?_ge hc (by omega)
end

section
/-! RXB of one byte outside Dispatching, from the invariant (spec/41_framing.md R120 to R124, R134): `received` is the
state between RXB's append and its tests. -/

namespace Sys2Proof.Machine

open Sys2Proof

/-- RXB's state after the start of a frame and the append, before its tests (41_framing.md R121, R122). -/
def State.received (s : State) (b : Byte) (now : Nat) : State :=
  { s.startFrame now with
    buf := (s.startFrame now).buf.set (s.startFrame now).count b
    count := (s.startFrame now).count + 1 }

section

variable (s : State) (b : Byte) (now : Nat)

@[simp] theorem State.received_cfg : (s.received b now).cfg = s.cfg := s.startFrame_cfg now
@[simp] theorem State.received_phase :
    (s.received b now).phase = if s.phase = .idle then .accumulating else s.phase := s.startFrame_phase now
@[simp] theorem State.received_count : (s.received b now).count = s.count + 1 := by simp [State.received]
@[simp] theorem State.received_buf : (s.received b now).buf = s.buf.set s.count b := by simp [State.received]
@[simp] theorem State.received_startTs :
    (s.received b now).startTs = if s.phase = .idle then clockValue s.cfg now else s.startTs := s.startFrame_startTs now
@[simp] theorem State.received_handlers : (s.received b now).handlers = s.handlers := s.startFrame_handlers now
@[simp] theorem State.received_txFlags : (s.received b now).txFlags = s.txFlags := s.startFrame_txFlags now
@[simp] theorem State.received_fault : (s.received b now).fault = s.fault := s.startFrame_fault now
@[simp] theorem State.received_counters : (s.received b now).counters = s.counters := s.startFrame_counters now
@[simp] theorem State.received_inputs : (s.received b now).inputs = s.inputs := s.startFrame_inputs now
@[simp] theorem State.received_outputs : (s.received b now).outputs = s.outputs := s.startFrame_outputs now

end

/-- RXB's append, where it has room, leaves `received`. -/
theorem State.eq_received_of_append {s u : State} {b : Byte} {now : Nat} (h : (s.startFrame now).append b = some u) :
    s.count < s.buf.length ∧ u = s.received b now := by
  obtain ⟨hlt, rfl⟩ := State.append_eq_some.1 h
  exact ⟨by simpa using hlt, rfl⟩

/-- What RXB can answer, with the append done. -/
theorem exec_rxb_next {b : Byte} {now : Nat} {s t : State} (h : exec (.rxb b now) s = .next t) :
    (s.fault ≠ none ∧ t = s.refuse .faulted) ∨
    (s.fault = none ∧ s.phase = .dispatching ∧ t = s.raise .reentrant) ∨
    (s.fault = none ∧ s.phase ≠ .dispatching ∧ s.count < s.buf.length ∧ (s.received b now).afterAppend = .next t) := by
  rcases execRxb_next h with h | h | ⟨hf, hp, u, hu, h⟩
  · exact .inl h
  · exact .inr (.inl h)
  · obtain ⟨hlt, rfl⟩ := State.eq_received_of_append hu
    exact .inr (.inr ⟨hf, hp, hlt, h⟩)

/-- Where there is room, RXB's outcome is what its tests make of `received`. -/
theorem exec_rxb_eq_afterAppend {s : State} (b : Byte) (now : Nat) (hf : s.fault = none) (hp : s.phase ≠ .dispatching)
    (hc : s.count < s.buf.length) : exec (.rxb b now) s = (s.received b now).afterAppend := by
  rw [exec, execRxb, unlessFaulted_none hf, unlessDispatching_other hp, State.append_of_lt (by simpa using hc)]
  rfl

end Sys2Proof.Machine

namespace Sys2Proof.Safety

open Sys2Proof Sys2Proof.Machine

theorem phase_ne_dispatching_of_idle {s : State} (hp : s.phase = .idle) : s.phase ≠ .dispatching := by simp [hp]

theorem phase_ne_dispatching_of_accumulating {s : State} (hp : s.phase = .accumulating) : s.phase ≠ .dispatching := by
  simp [hp]

section

variable {s : State} (h : Inv s) (b : Byte) (now : Nat)

include h

theorem Inv.count_lt_length (hp : s.phase ≠ .dispatching) : s.count < s.buf.length := by
  rw [h.shape.buf]
  exact h.count_lt_frameSize hp

theorem Inv.exec_rxb (hf : s.fault = none) (hp : s.phase ≠ .dispatching) :
    Machine.exec (.rxb b now) s = (s.received b now).afterAppend :=
  exec_rxb_eq_afterAppend b now hf hp (h.count_lt_length hp)

theorem Inv.appended_received (hp : s.phase ≠ .dispatching) : Appended (s.received b now) :=
  h.appended hp (State.append_of_lt (h.count_startFrame_lt_length hp now))

/-- The byte received is read back at its offset. -/
theorem Inv.received_getElem?_count (hp : s.phase ≠ .dispatching) : (s.received b now).buf[s.count]? = some b := by
  rw [State.received_buf, List.getElem?_set_self (h.count_lt_length hp)]

/-- In Idle the marker check sees the byte just received (41_framing.md R123). -/
theorem Inv.markerOk_received_of_idle (hp : s.phase = .idle) :
    (s.received b now).markerOk = decide (b = s.cfg.marker) := by
  have hread := h.received_getElem?_count b now (phase_ne_dispatching_of_idle hp)
  rw [h.idle.1 hp] at hread
  rw [State.markerOk, hread, State.received_cfg]
  simp [beq_eq_decide]

/-- Inside a frame the marker check sees the frame's first byte, which I-2 says is MARKER. -/
theorem Inv.markerOk_received_of_accumulating (hp : s.phase = .accumulating) : (s.received b now).markerOk = true := by
  obtain ⟨hc, -, hmarker⟩ := h.partialFrame hp
  rw [markerOk_eq_true, State.received_buf, State.received_cfg, List.getElem?_set_ne (by omega), hmarker]

/-- Below FRAME_SIZE, with the marker in its place, RXB answers OK and does nothing after its append (41_framing.md
R124). -/
theorem Inv.exec_rxb_of_partial (hf : s.fault = none) (hp : s.phase ≠ .dispatching)
    (hm : (s.received b now).markerOk = true) (hc : s.count + 1 < s.cfg.frameSize) :
    Machine.exec (.rxb b now) s = .next ((s.received b now).respond .ok) := by
  rw [h.exec_rxb b now hf hp, State.afterAppend_of_partial hm (by simpa using hc)]

/-- A byte that is not MARKER in Idle is dropped with an empty result, since the frame has no later byte (41_framing.md
R134). -/
theorem Inv.exec_rxb_of_not_marker (hf : s.fault = none) (hp : s.phase = .idle) (hb : b ≠ s.cfg.marker) :
    Machine.exec (.rxb b now) s =
      .next (((s.received b now).bump .resync).toIdle.respond .ok [.drop .framing .empty]) := by
  have hnone : (s.received b now).nextMarker = none := by
    rw [State.nextMarker_eq_none, State.received_count, h.idle.1 hp]
    omega
  rw [h.exec_rxb b now hf (phase_ne_dispatching_of_idle hp),
    State.afterAppend_of_bad_marker (by simpa [h.markerOk_received_of_idle b now hp] using hb),
    State.resync_of_none hnone]

end

theorem received_getElem?_ne (s : State) (b : Byte) (now : Nat) {k : Nat} (hk : k ≠ s.count) :
    (s.received b now).buf[k]? = s.buf[k]? := by
  rw [State.received_buf, List.getElem?_set_ne hk.symm]

end Sys2Proof.Safety

open Sys2Proof Sys2Proof.Machine Sys2Proof.Safety

/-- Settles O21: in Idle the marker check passes for MARKER, and one byte is no complete frame. -/
theorem rxbOfMarkerInIdleStartsAFrame : Obligations.RxbOfMarkerInIdleStartsAFrame := by
  intro s now h hf hp
  have hcount := h.idle.1 hp
  have hsize := h.shape.frameSize_ge
  have hd := phase_ne_dispatching_of_idle hp
  refine ⟨_, h.exec_rxb_of_partial s.cfg.marker now hf hd (by simp [h.markerOk_received_of_idle _ now hp])
    (by omega), ?_⟩
  refine ⟨by simp [hp], by simp [hcount], by simp [hp, clockValue_eq_mod], h.received_getElem?_count _ now hd,
    fun k => received_getElem?_ne s _ now, by simp [KeepsRest], counts_of_counters_eq (by simp),
    gives_of_outputs (by simp)⟩

/-- Settles O22: the marker check fails, and the resynchronization finds no later byte. -/
theorem rxbOfAnotherByteInIdleIsDropped : Obligations.RxbOfAnotherByteInIdleIsDropped := by
  intro s b now h hf hp hb
  refine ⟨_, h.exec_rxb_of_not_marker b now hf hp hb, by simp, by simp, by simp [hp, clockValue_eq_mod], fun k hk => ?_,
    by simp [KeepsRest], ?_, gives_of_outputs (by simp)⟩
  · simpa using received_getElem?_ne s b now hk
  · exact counts_of_bump (u := s.received b now) (by simp) (by simp) (by simp)

/-- Settles O24: the marker is in its place and the frame not complete, so RXB only appends. -/
theorem rxbInsideAFrameAppends : Obligations.RxbInsideAFrameAppends := by
  intro s b now h hf hp hc
  have hd := phase_ne_dispatching_of_accumulating hp
  refine ⟨_, h.exec_rxb_of_partial b now hf hd (h.markerOk_received_of_accumulating b now hp) hc, ?_⟩
  refine ⟨by simp [hp], by simp, by simp [hp], h.received_getElem?_count b now hd,
    fun k => received_getElem?_ne s b now, by simp [KeepsRest], counts_of_counters_eq (by simp),
    gives_of_outputs (by simp)⟩
end

section
/-! The byte that completes a frame, and the resynchronization of a frame dropped whole (spec/41_framing.md R125, R126,
R130 to R133). -/

namespace Sys2Proof.Safety

open Sys2Proof Sys2Proof.Machine

/-! ## What a resynchronization leaves -/

@[simp] theorem resync_startTs (s : State) (cause : DropCause) : (s.resync cause).startTs = s.startTs := by
  rcases s.resync_cases cause with ⟨i, -, h⟩ | ⟨-, h⟩
  · simp [h]
  · simp [h]

theorem resync_counters (s : State) (cause : DropCause) : (s.resync cause).counters = (s.bump .resync).counters := by
  rcases s.resync_cases cause with ⟨i, -, h⟩ | ⟨-, h⟩
  · simp [h]
  · simp [h]

/-- In a full buffer the framer's search finds what R131 says. -/
theorem leastMarker_iff_nextMarker {s : State} (hc : s.count = s.buf.length) {i : Nat} :
    LeastMarker s.cfg.marker s.buf i ↔ s.nextMarker = some i := by
  rw [LeastMarker, State.nextMarker_eq_some, hc]
  constructor
  · rintro ⟨h1, hmarker, hleast⟩
    obtain ⟨hlt, -⟩ := List.getElem?_eq_some_iff.1 hmarker
    exact ⟨h1, hlt, hmarker, hleast⟩
  · rintro ⟨h1, -, hmarker, hleast⟩
    exact ⟨h1, hmarker, hleast⟩

/-- Resync of a complete frame v.buf, seen from a state s that has the same parameters and outputs. -/
theorem resyncLeaves_resync {s v : State} (cause : DropCause) (hcfg : v.cfg = s.cfg) (hphase : v.phase = .accumulating)
    (hcount : v.count = v.cfg.frameSize) (hlen : v.buf.length = v.cfg.frameSize) (houtputs : v.outputs = s.outputs) :
    ResyncLeaves s (v.resync cause) v.buf cause := by
  have hfull : v.count = v.buf.length := hcount.trans hlen.symm
  rw [ResyncLeaves, ← hcfg, ← hcount]
  refine ⟨fun i hi => ?_, fun hno => ?_⟩
  · rw [State.resync_of_some ((leastMarker_iff_nextMarker hfull).1 hi)]
    have hle : (v.bump .resync).count ≤ (v.bump .resync).buf.length := by simp [hfull]
    refine ⟨by simp [hphase], by simp, fun k hk => ?_, fun k hk => ?_, gives_of_outputs (by simp [houtputs])⟩
    · simpa using State.shiftBuf_getElem?_lt hle (by simpa using hk)
    · simpa using State.shiftBuf_getElem?_ge hle (by simpa using hk)
  · have hnone : v.nextMarker = none :=
      Option.eq_none_iff_forall_ne_some.2 fun i hi => hno i ((leastMarker_iff_nextMarker hfull).2 hi)
    rw [State.resync_of_none hnone]
    exact ⟨by simp, by simp, by simp, gives_of_outputs (by simp [houtputs])⟩

/-! ## The byte that completes a frame -/

section

variable {s : State} (h : Inv s) (b : Byte) (now : Nat) (hp : s.phase = .accumulating)
  (hc : s.count + 1 = s.cfg.frameSize)

include h hc

theorem Inv.received_buf_eq_completedBy : (s.received b now).buf = completedBy s b := by
  have hlen := h.shape.buf
  rw [State.received_buf, completedBy, List.set_eq_take_append_cons_drop, if_pos (by omega),
    List.drop_eq_nil_of_le (by omega)]

theorem Inv.frame_received : (s.received b now).frame = completedBy s b := by
  rw [State.frame, h.received_buf_eq_completedBy b now hc, State.received_cfg, List.take_of_length_le]
  simp only [completedBy, List.length_append, List.length_take, List.length_singleton]
  omega

theorem Inv.frameType_received {ty : Byte} (hty : (completedBy s b)[1]? = some ty) :
    (s.received b now).frameType = ty := by
  rw [State.frameType, h.received_buf_eq_completedBy b now hc, List.getD_eq_getElem?_getD, hty, Option.getD_some]

include hp

/-- A complete frame dropped whole: after the counter of its cause, the framer resynchronizes. -/
theorem Inv.exec_rxb_of_resync {cause : DropCause} {n : CounterName} (hf : s.fault = none) (hn : n ≠ .resync)
    (ht : (s.received b now).afterAppend = .next (((s.received b now).bump n).resync cause)) :
    ∃ t, Machine.exec (.rxb b now) s = .next t ∧ ResyncLeaves s t (completedBy s b) cause ∧ t.startTs = s.startTs ∧
      KeepsRest s t ∧ Counts s t [n, .resync] := by
  have hu := h.appended_received b now (phase_ne_dispatching_of_accumulating hp)
  have hv := hu.bump n
  have hbuf : ((s.received b now).bump n).buf = completedBy s b := by
    rw [State.bump_buf, h.received_buf_eq_completedBy b now hc]
  refine ⟨_, (h.exec_rxb b now hf (phase_ne_dispatching_of_accumulating hp)).trans ht, ?_, by simp [hp], ?_, ?_⟩
  · rw [← hbuf]
    exact resyncLeaves_resync cause (by simp) hv.phase (by simpa using hc) hv.shape.buf (by simp)
  · exact KeepsRest.trans (by simp [KeepsRest]) (resync_keepsRest _ cause)
  · have hcounts : Counts s ((s.received b now).bump n) [n] :=
      counts_of_bump (u := s.received b now) (by simp) (by simp) rfl
    exact hcounts.bump (by simp) (by simpa using hn.symm) (resync_counters _ cause)

end

end Sys2Proof.Safety

open Sys2Proof Sys2Proof.Machine Sys2Proof.Safety

/-- Settles O25: the checksum check fails on the completed frame, which is dropped whole. -/
theorem rxbOfABadChecksumResynchronizes : Obligations.RxbOfABadChecksumResynchronizes := by
  intro s b now h hf hp hc hv
  refine h.exec_rxb_of_resync b now hp hc hf (by simp) (State.afterAppend_of_bad_checksum ?_ ?_ ?_)
  · exact h.markerOk_received_of_accumulating b now hp
  · simp [hc]
  · simpa [h.frame_received b now hc] using hv

/-- Settles O26: the checksum check passes and the type check fails, and the frame is dropped whole. -/
theorem rxbOfAnUnknownTypeResynchronizes : Obligations.RxbOfAnUnknownTypeResynchronizes := by
  intro s b ty now h hf hp hc hv hty hrange
  refine h.exec_rxb_of_resync b now hp hc hf (by simp) (State.afterAppend_of_unknown_type ?_ ?_ ?_ ?_)
  · exact h.markerOk_received_of_accumulating b now hp
  · simp [hc]
  · simpa [h.frame_received b now hc] using hv
  · simpa [typeInRange, h.frameType_received b now hc hty] using hrange
end

section
/-! Which command gives which event, and who writes the start timestamp (spec/41_framing.md R122, R134, R139). -/

namespace Sys2Proof.Safety

open Sys2Proof Sys2Proof.Machine

/-! ## The command behind an event -/

theorem output_eq_of_concat {l : List Output} {o o' : Output} (h : l ++ [o] = l ++ [o']) : o = o' := by
  simpa using h

/-- An event comes from SEND, which gives Tx, from POLL, which gives Timeout, or from what follows RXB's append. -/
theorem exec_event {i : Instr} {s t : State} {o : Output} {e : Event} (h : exec i s = .next t)
    (ho : t.outputs = s.outputs ++ [o]) (he : e ∈ o.events) :
    (∃ f, e = .tx f) ∨ ((∃ now, i = .poll now) ∧ e = .timeout) ∨
    (∃ b now, i = .rxb b now ∧ s.fault = none ∧ s.phase ≠ .dispatching ∧
      (s.received b now).afterAppend = .next t) := by
  have hevents {r : Response} {evs : List Event} (hout : t.outputs = s.outputs ++ [⟨r, evs⟩]) : e ∈ evs := by
    cases output_eq_of_concat (ho.symm.trans hout)
    exact he
  cases i with
  | rxb b now =>
    rcases exec_rxb_next h with ⟨-, rfl⟩ | ⟨-, -, rfl⟩ | ⟨hf, hp, -, h⟩
    · cases hevents (State.refuse_outputs s _)
    · cases hevents (State.raise_outputs s _)
    · exact .inr (.inr ⟨b, now, rfl, hf, hp, h⟩)
  | poll now =>
    rcases execPoll_next h with ⟨-, rfl⟩ | ⟨-, -, rfl⟩ | ⟨-, -, -, rfl⟩ | ⟨-, -, -, rfl⟩
    · cases hevents (State.refuse_outputs s _)
    · cases hevents (State.raise_outputs s _)
    · exact .inr (.inl ⟨⟨now, rfl⟩, List.mem_singleton.1 (hevents (State.discardPartial_outputs s))⟩)
    · cases hevents (State.respond_outputs s _ [])
  | hret =>
    rcases execHret_next h with ⟨-, rfl⟩ | ⟨-, -, rfl⟩ | ⟨-, -, rfl⟩
    · cases hevents (State.refuse_outputs s _)
    · cases hevents (State.endDispatch_outputs s)
    · cases hevents (State.refuse_outputs s _)
  | reg ty hd =>
    rcases execReg_next h with ⟨-, rfl⟩ | ⟨-, -, -, rfl⟩ | ⟨-, -, rfl⟩
    · cases hevents (State.refuse_outputs s _)
    · cases hevents (State.respond_outputs s _ [])
    · cases hevents (State.refuse_outputs s _)
  | send ty payload len =>
    rcases execSend_next h with ⟨-, rfl⟩ | ⟨-, -, rfl⟩ | ⟨-, -, -, rfl⟩ | ⟨-, -, -, rfl⟩
    · cases hevents (State.refuse_outputs s _)
    · cases hevents (State.raise_outputs s _)
    · cases hevents (State.raise_outputs s _)
    · exact .inl ⟨_, List.mem_singleton.1 (hevents (State.transmit_outputs s _))⟩
  | setf k v =>
    rcases execSetf_next h with ⟨-, rfl⟩ | ⟨-, -, rfl⟩ | ⟨-, -, rfl⟩
    · cases hevents (State.refuse_outputs s _)
    · cases hevents (State.respond_outputs s _ [])
    · cases hevents (State.refuse_outputs s _)
  | setc v =>
    rcases execSetc_next h with ⟨-, rfl⟩ | ⟨-, rfl⟩
    · cases hevents (State.refuse_outputs s _)
    · cases hevents (State.respond_outputs s _ [])
  | rdstat sel =>
    obtain ⟨r, hr, -⟩ := execRdstat_eq sel s
    cases hr.symm.trans h
    cases hevents (State.respond_outputs s _ [])

/-! ## Drops -/

/-- What Resync reports is what its search found. -/
inductive ResyncResult (s : State) : DropResult → Prop
  | shift {i : Nat} (found : s.nextMarker = some i) : ResyncResult s (.shift i)
  | empty (notFound : s.nextMarker = none) : ResyncResult s .empty

theorem resync_event {s : State} {cause : DropCause} {o : Output} {e : Event}
    (ho : (s.resync cause).outputs = s.outputs ++ [o]) (he : e ∈ o.events) :
    ∃ r, e = .drop cause r ∧ ResyncResult s r := by
  rcases s.resync_cases cause with ⟨i, hi, h⟩ | ⟨hi, h⟩
  · have hout : (s.resync cause).outputs = s.outputs ++ [⟨.ok, [.drop cause (.shift i)]⟩] := by simp [h]
    cases output_eq_of_concat (ho.symm.trans hout)
    exact ⟨_, List.mem_singleton.1 he, .shift hi⟩
  · have hout : (s.resync cause).outputs = s.outputs ++ [⟨.ok, [.drop cause .empty]⟩] := by simp [h]
    cases output_eq_of_concat (ho.symm.trans hout)
    exact ⟨_, List.mem_singleton.1 he, .empty hi⟩

@[simp] theorem nextMarker_bump (s : State) (n : CounterName) : (s.bump n).nextMarker = s.nextMarker := by
  simp [State.nextMarker]

theorem bump_resync_event {s : State} {n : CounterName} {cause : DropCause} {o : Output} {e : Event}
    (ho : ((s.bump n).resync cause).outputs = s.outputs ++ [o]) (he : e ∈ o.events) :
    ∃ r, e = .drop cause r ∧ ResyncResult s r := by
  obtain ⟨r, her, hr⟩ := resync_event (s := s.bump n) (by simpa using ho) he
  refine ⟨r, her, ?_⟩
  cases hr with
  | shift found => exact .shift (by simpa using found)
  | empty notFound => exact .empty (by simpa using notFound)

/-- The events after an append: the drop of a resynchronization with its cause and its result, or those of the handler
lookup. -/
theorem afterAppend_event {u t : State} {o : Output} {e : Event} (h : u.afterAppend = .next t)
    (ho : t.outputs = u.outputs ++ [o]) (he : e ∈ o.events) :
    (∃ r, e = .drop .framing r ∧ ResyncResult u r ∧ u.markerOk = false ∧ t = u.resync .framing) ∨
    (∃ n cause r, e = .drop cause r ∧ ResyncResult u r ∧ cause ≠ .framing ∧ u.cfg.frameSize ≤ u.count ∧
      t = (u.bump n).resync cause) ∨
    (∃ hd f, e = .deliver hd f) ∨ (∃ ty, e = .unregistered ty) := by
  rcases State.afterAppend_next h with ⟨hm, rfl⟩ | ⟨-, -, rfl⟩ | ⟨-, hc, -, rfl⟩ | ⟨-, hc, -, -, rfl⟩ | ⟨-, -, -, -, h⟩
  · obtain ⟨r, her, hr⟩ := resync_event ho he
    exact .inl ⟨r, her, hr, hm, rfl⟩
  · cases output_eq_of_concat (ho.symm.trans (State.respond_outputs u _ []))
    cases he
  · obtain ⟨r, her, hr⟩ := bump_resync_event ho he
    exact .inr (.inl ⟨_, _, r, her, hr, by simp, hc, rfl⟩)
  · obtain ⟨r, her, hr⟩ := bump_resync_event ho he
    exact .inr (.inl ⟨_, _, r, her, hr, by simp, hc, rfl⟩)
  · rcases State.complete_next h with ⟨hd, -, rfl⟩ | ⟨-, rfl⟩
    · cases output_eq_of_concat (ho.symm.trans (State.deliver_outputs u hd))
      exact .inr (.inr (.inl ⟨hd, _, List.mem_singleton.1 he⟩))
    · cases output_eq_of_concat (ho.symm.trans (State.dropUnregistered_outputs u _))
      exact .inr (.inr (.inr ⟨_, List.mem_singleton.1 he⟩))

/-- The two ways an RXB gives a drop (41_framing.md R134): the byte is no MARKER and found Idle, and nothing is left; or
it completed the frame being accumulated. -/
inductive Dropped (s t : State) (b : Byte) (now : Nat) : DropCause → DropResult → Prop
  | framing (phase : s.phase = .idle) (idle : t.phase = .idle) (count : t.count = 0) : Dropped s t b now .framing .empty
  | complete {cause : DropCause} {r : DropResult} (n : CounterName) (ne : cause ≠ .framing)
      (phase : s.phase = .accumulating) (count : s.count + 1 = s.cfg.frameSize)
      (result : ResyncResult (s.received b now) r) (eq : t = ((s.received b now).bump n).resync cause) :
      Dropped s t b now cause r

/-- A marker check that fails found Idle, by I-2; a frame is complete in Accumulating only, by I-1. -/
theorem Inv.dropped {s t : State} {i : Instr} {o : Output} {cause : DropCause} {r : DropResult} (h : Inv s)
    (ht : Machine.exec i s = .next t) (ho : t.outputs = s.outputs ++ [o]) (he : Event.drop cause r ∈ o.events) :
    ∃ b now, i = .rxb b now ∧ Dropped s t b now cause r := by
  rcases exec_event ht ho he with ⟨f, hf⟩ | ⟨-, hf⟩ | ⟨b, now, rfl, -, hp, ht⟩
  · cases hf
  · cases hf
  refine ⟨b, now, rfl, ?_⟩
  have hroom := h.count_lt_frameSize hp
  rcases afterAppend_event ht (by simpa using ho) he with
    ⟨r, her, hr, hm, rfl⟩ | ⟨n, cause, r, her, hr, hcause, hc, rfl⟩ | ⟨hd, f, hf⟩ | ⟨ty, hf⟩
  · cases her
    cases hphase : s.phase with
    | idle =>
      have hnone : (s.received b now).nextMarker = none := by
        rw [State.nextMarker_eq_none, State.received_count, h.idle.1 hphase]
        omega
      cases hr with
      | shift found => cases hnone.symm.trans found
      | empty => exact .framing hphase (by simp [State.resync_of_none hnone]) (by simp [State.resync_of_none hnone])
    | accumulating => simp [h.markerOk_received_of_accumulating b now hphase] at hm
    | dispatching => exact absurd hphase hp
  · cases her
    have hc : s.count + 1 = s.cfg.frameSize := by
      simp only [State.received_cfg, State.received_count] at hc
      omega
    have hsize := h.shape.frameSize_ge
    cases hphase : s.phase with
    | idle => have := h.idle.1 hphase; omega
    | accumulating => exact .complete n hcause hphase hc hr rfl
    | dispatching => exact absurd hphase hp
  · cases hf
  · cases hf

theorem ResyncResult.shift_lt {s : State} {i : Nat} (h : ResyncResult s (.shift i)) : 1 ≤ i ∧ i < s.count := by
  obtain ⟨found⟩ := h
  obtain ⟨h1, hlt, -⟩ := State.nextMarker_eq_some.1 found
  exact ⟨h1, hlt⟩

/-- A resynchronization that shifts keeps the phase (41_framing.md R132). -/
theorem ResyncResult.resync_bump_phase {s : State} {i : Nat} (h : ResyncResult s (.shift i)) (n : CounterName)
    (cause : DropCause) : ((s.bump n).resync cause).phase = s.phase := by
  obtain ⟨found⟩ := h
  simp [State.resync_of_some (s := s.bump n) (by simpa using found) cause]

/-! ## The start timestamp -/

theorem complete_startTs {s t : State} {ty : Byte} (h : s.complete ty = .next t) : t.startTs = s.startTs := by
  rcases State.complete_next h with ⟨hd, -, rfl⟩ | ⟨-, rfl⟩
  · simp
  · simp

theorem afterAppend_startTs {u t : State} (h : u.afterAppend = .next t) : t.startTs = u.startTs := by
  rcases State.afterAppend_next h with ⟨-, rfl⟩ | ⟨-, -, rfl⟩ | ⟨-, -, -, rfl⟩ | ⟨-, -, -, -, rfl⟩ | ⟨-, -, -, -, h⟩
  · simp
  · simp
  · simp
  · simp
  · exact complete_startTs h

theorem exec_rxb_startTs_of_not_idle {b : Byte} {now : Nat} {s t : State} (h : exec (.rxb b now) s = .next t)
    (hp : s.phase ≠ .idle) : t.startTs = s.startTs := by
  rcases exec_rxb_next h with ⟨-, rfl⟩ | ⟨-, -, rfl⟩ | ⟨-, -, -, h⟩
  · rfl
  · rfl
  · simp [afterAppend_startTs h, hp]

/-- Only an RXB that finds Idle writes the start timestamp (41_framing.md R122). -/
theorem exec_startTs {i : Instr} {s t : State} (h : exec i s = .next t) :
    t.startTs = s.startTs ∨ ((∃ b now, i = .rxb b now) ∧ s.phase = .idle) := by
  cases i with
  | rxb b now =>
    by_cases hp : s.phase = .idle
    · exact .inr ⟨⟨b, now, rfl⟩, hp⟩
    · exact .inl (exec_rxb_startTs_of_not_idle h hp)
  | poll now =>
    obtain ⟨-, -, -, hts, -⟩ := execPoll_frame h
    exact .inl hts
  | hret =>
    obtain ⟨-, -, hts, -⟩ := execHret_frame h
    exact .inl hts
  | reg ty hd =>
    obtain ⟨-, -, ⟨-, -, -, hts⟩, -⟩ := execReg_frame h
    exact .inl hts
  | send ty payload len =>
    obtain ⟨-, -, ⟨-, -, -, hts⟩, -⟩ := execSend_frame h
    exact .inl hts
  | setf k v =>
    obtain ⟨-, -, ⟨-, -, -, hts⟩, -⟩ := execSetf_frame h
    exact .inl hts
  | setc v =>
    obtain ⟨-, -, ⟨-, -, -, hts⟩, -⟩ := execSetc_frame h
    exact .inl hts
  | rdstat sel =>
    obtain ⟨⟨-, -, -, hts⟩, -⟩ := execRdstat_frame h
    exact .inl hts

/-- In Idle an RXB leaves the clock value as the start timestamp, whatever the byte and the outcome. -/
theorem exec_rxb_startTs_of_idle {b : Byte} {now : Nat} {s t : State} (h : exec (.rxb b now) s = .next t)
    (hf : s.fault = none) (hp : s.phase = .idle) : t.startTs = now % 2 ^ s.cfg.clockWidth := by
  rcases exec_rxb_next h with ⟨hfault, -⟩ | ⟨-, hd, -⟩ | ⟨-, -, -, h⟩
  · exact absurd hf hfault
  · exact absurd hd (phase_ne_dispatching_of_idle hp)
  · simp [afterAppend_startTs h, hp, clockValue_eq_mod]

/-! ## The start timestamp is not read after an append -/

/-- The state with another start timestamp. -/
def withStartTs (s : State) (ts : Nat) : State := { s with startTs := ts }

theorem bump_withStartTs (s : State) (n : CounterName) (ts : Nat) :
    (withStartTs s ts).bump n = withStartTs (s.bump n) ts := by
  by_cases hc : s.cfg.hasCounters = true
  · simp [State.bump, withStartTs, hc]
  · simp [State.bump, withStartTs, hc]

theorem resync_withStartTs (s : State) (cause : DropCause) (ts : Nat) :
    (withStartTs s ts).resync cause = withStartTs (s.resync cause) ts := by
  have hnext : (withStartTs s ts).nextMarker = s.nextMarker := rfl
  rcases s.resync_cases cause with ⟨i, hi, h⟩ | ⟨hi, h⟩
  · rw [h, State.resync_of_some (hnext.trans hi), bump_withStartTs]
    rfl
  · rw [h, State.resync_of_none (hnext.trans hi), bump_withStartTs]
    rfl

theorem complete_withStartTs {s t : State} {ty : Byte} (h : s.complete ty = .next t) (ts : Nat) :
    (withStartTs s ts).complete ty = .next (withStartTs t ts) := by
  rcases State.complete_next h with ⟨hd, hh, rfl⟩ | ⟨hh, rfl⟩
  · rw [State.complete_of_some (s := withStartTs s ts) hh, State.deliver, bump_withStartTs]
    rfl
  · rw [State.complete_of_none (s := withStartTs s ts) hh, State.dropUnregistered, bump_withStartTs]
    rfl

theorem afterAppend_withStartTs {u t : State} (h : u.afterAppend = .next t) (ts : Nat) :
    (withStartTs u ts).afterAppend = .next (withStartTs t ts) := by
  rcases State.afterAppend_next h with ⟨hm, rfl⟩ | ⟨hm, hc, rfl⟩ | ⟨hm, hc, hv, rfl⟩ | ⟨hm, hc, hv, hr, rfl⟩ |
    ⟨hm, hc, hv, hr, h⟩
  · rw [State.afterAppend_of_bad_marker (s := withStartTs u ts) hm, resync_withStartTs]
  · exact State.afterAppend_of_partial (s := withStartTs u ts) hm hc
  · rw [State.afterAppend_of_bad_checksum (s := withStartTs u ts) hm hc hv, bump_withStartTs, resync_withStartTs]
  · rw [State.afterAppend_of_unknown_type (s := withStartTs u ts) hm hc hv hr, bump_withStartTs, resync_withStartTs]
  · rw [State.afterAppend_of_valid (s := withStartTs u ts) hm hc hv hr]
    exact complete_withStartTs h ts

/-- Outside Idle no frame starts, so the clock value is not read. -/
theorem received_withStartTs {s : State} (hp : s.phase ≠ .idle) (b : Byte) (now now' ts : Nat) :
    (withStartTs s ts).received b now' = withStartTs (s.received b now) ts := by
  have hstart : s.startFrame now = s := if_neg hp
  have hstart' : (withStartTs s ts).startFrame now' = withStartTs s ts := if_neg hp
  rw [State.received, State.received, hstart, hstart']
  rfl

/-- Outside Idle an RXB does the same whatever the clock value and the start timestamp are (41_framing.md R139). -/
theorem exec_rxb_withStartTs {b : Byte} {now : Nat} {s t : State} (h : exec (.rxb b now) s = .next t)
    (hp : s.phase ≠ .idle) (now' ts : Nat) :
    exec (.rxb b now') (withStartTs s ts) = .next (withStartTs t ts) := by
  rcases exec_rxb_next h with ⟨hf, rfl⟩ | ⟨hf, hd, rfl⟩ | ⟨hf, hd, hc, h⟩
  · exact unlessFaulted_faulted hf
  · exact (unlessFaulted_none (s := withStartTs s ts) hf).trans
      (unlessDispatching_dispatching (s := withStartTs s ts) hd)
  · rw [exec_rxb_eq_afterAppend (s := withStartTs s ts) b now' hf hd hc, received_withStartTs hp b now]
    exact afterAppend_withStartTs h ts

end Sys2Proof.Safety

open Sys2Proof Sys2Proof.Machine Sys2Proof.Safety

/-- Settles O20: what each command does to start_ts, and the ways an RXB drops a frame, of which only the one in
Accumulating shifts. -/
theorem startTimestampIsWrittenOnlyFromIdle : Obligations.StartTimestampIsWrittenOnlyFromIdle := by
  refine ⟨fun s b now h hf hp => ?_, fun s t i ht hts => ?_, fun s t i o cause k h ht ho he => ?_⟩
  · obtain ⟨t, ht⟩ := h.answers_exec (.rxb b now)
    refine ⟨t, ht, exec_rxb_startTs_of_idle ht hf hp, ?_⟩
    rintro rfl
    obtain ⟨t', ht', hphase, -⟩ := rxbOfMarkerInIdleStartsAFrame s now h hf hp
    cases ht.symm.trans ht'
    exact hphase
  · exact (exec_startTs ht).resolve_left hts
  · obtain ⟨b, now, rfl, hdrop⟩ := h.dropped ht ho he
    cases hdrop with
    | complete n _ hphase _ hresult heq =>
      have hts := exec_rxb_startTs_of_not_idle ht (by simp [hphase])
      exact ⟨hphase, by simp [heq, hresult.resync_bump_phase, hphase], hts⟩

/-- Settles O23: the two ways an RXB gives a drop; the dropped byte in Idle is stale, and so is start_ts. -/
theorem dropsHappenOnlyWhereTheRulesSay : Obligations.DropsHappenOnlyWhereTheRulesSay := by
  refine ⟨fun s t i o cause r h ht ho he => ?_, fun s b now h hf hp hb => ?_⟩
  · obtain ⟨b, now, rfl, hdrop⟩ := h.dropped ht ho he
    refine ⟨⟨b, now, rfl⟩, ?_⟩
    cases hdrop with
    | framing hphase hidle hcount => exact ⟨fun _ => ⟨hphase, rfl, hidle, hcount⟩, by simp⟩
    | complete n hcause hphase hcount hresult =>
      refine ⟨fun h => absurd h hcause, fun _ => ⟨hphase, hcount, ?_⟩⟩
      rintro k rfl
      obtain ⟨h1, hlt⟩ := hresult.shift_lt
      rw [State.received_count] at hlt
      exact ⟨h1, by omega⟩
  · obtain ⟨t, ht, hphase, hcount, -, -, ⟨hcfg, hhandlers, hflags, hfault, hinputs⟩, hcounts, hgives⟩ :=
      rxbOfAnotherByteInIdleIsDropped s b now h hf hp hb
    refine ⟨t, ht, ⟨hcfg, hphase.trans hp.symm, hcount.trans (h.idle.1 hp).symm, fun k hk => ?_, fun hacc => ?_,
      hhandlers, hflags, hfault, rfl, hinputs, rfl⟩, hcounts, hgives⟩
    · exact absurd hk (by simp [h.idle.1 hp])
    · exact absurd hacc (by simp [hp])

/-- Settles O30: outside Idle nothing of an RXB reads the clock or start_ts, and no other command gives Timeout. -/
theorem rxbNeverTimesOut : Obligations.RxbNeverTimesOut := by
  refine ⟨fun s t b now now' ts hp ht => ?_, fun s t i o ht ho he => ?_⟩
  · exact ⟨exec_rxb_startTs_of_not_idle ht hp, exec_rxb_withStartTs ht hp now' ts⟩
  · rcases exec_event ht ho he with ⟨f, hf⟩ | ⟨hpoll, -⟩ | ⟨b, now, rfl, -, -, ht⟩
    · cases hf
    · exact hpoll
    · rcases afterAppend_event ht (by simpa using ho) he with
        ⟨r, hr, -⟩ | ⟨n, cause, r, hr, -⟩ | ⟨hd, f, hf⟩ | ⟨ty, hf⟩
      · cases hr
      · cases hr
      · cases hf
      · cases hf
end

section
/-! A frame after garbage (spec/95_test_vectors.md 1.2, spec/41_framing.md R141). While the bytes of a stream come, the
framer holds those from some offset on, and that offset never passes the frame's first byte: the search of a
resynchronization stops at the frame's MARKER at the latest. -/

namespace Sys2Proof.Safety

open Sys2Proof Sys2Proof.Machine

/-- Of a stream's first n bytes the framer holds those from offset p on, and p is not past g, where the frame begins. -/
structure Tracks (stream : List Byte) (g n p : Nat) (s : State) : Prop where
  ends : p + s.count = n
  start : p ≤ g
  holds : ∀ k, k < s.count → s.buf[k]? = stream[p + k]?

/-- No FRAME_SIZE bytes that start at a MARKER before offset g pass the checksum and type checks
(90_conflicts.md C7). -/
def NoValidWindow (c : Config) (stream : List Byte) (g : Nat) : Prop :=
  ∀ p, p < g → stream[p]? = some c.marker →
    ¬ (verify c.payloadCap (windowAt c stream p) = true ∧ ∃ ty, stream[p + 1]? = some ty ∧ ty.toNat < c.typeCount)

/-- An answer OK with no Tx and no Deliver event. -/
def Quiet (o : Output) : Prop := o.response = .ok ∧ o.events.filter Event.isArchitectural = []

/-! ## What each operation of RXB does to the bytes held -/

section

variable {stream : List Byte} {g n p : Nat} {s : State} (h : Tracks stream g n p s)

include h

theorem Tracks.respond (r : Response) (evs : List Event) : Tracks stream g n p (s.respond r evs) :=
  ⟨h.ends, h.start, h.holds⟩

theorem Tracks.bump (m : CounterName) : Tracks stream g n p (s.bump m) :=
  ⟨by simpa using h.ends, h.start, by simpa using h.holds⟩

theorem Tracks.received {b : Byte} (hb : stream[n]? = some b) (hc : s.count < s.buf.length) (now : Nat) :
    Tracks stream g (n + 1) p (s.received b now) := by
  have hends := h.ends
  refine ⟨by rw [State.received_count]; omega, h.start, fun k hk => ?_⟩
  rw [State.received_count] at hk
  rcases Nat.lt_succ_iff_lt_or_eq.1 hk with hk | rfl
  · rw [received_getElem?_ne s b now hk.ne, h.holds k hk]
  · rw [State.received_buf, List.getElem?_set_self hc, hends, hb]

/-- The frame's MARKER, where it is among the bytes held, is the search's to find. -/
theorem Tracks.getElem?_marker (hmarker : stream[g]? = some s.cfg.marker) (hg : g < n) :
    s.buf[g - p]? = some s.cfg.marker := by
  have hends := h.ends
  have hstart := h.start
  rw [h.holds (g - p) (by omega), Nat.add_sub_cancel' hstart, hmarker]

/-- A resynchronization of bytes that begin before the frame does not pass the frame's MARKER. -/
theorem Tracks.resync (hmarker : stream[g]? = some s.cfg.marker) (hp : p < g) (hc : s.count ≤ s.buf.length)
    (cause : DropCause) : ∃ q, Tracks stream g n q (s.resync cause) := by
  have hends := h.ends
  rcases s.resync_cases cause with ⟨i, hi, ht⟩ | ⟨hnone, ht⟩
  · obtain ⟨h1, hlt, -, hleast⟩ := State.nextMarker_eq_some.1 hi
    refine ⟨p + i, ?_⟩
    rw [ht]
    refine Tracks.respond ⟨?_, ?_, fun k hk => ?_⟩ _ _
    · simp only [State.shiftBuf_count, State.bump_count]
      omega
    · by_contra hpass
      exact hleast (g - p) (by omega) (by omega) (h.getElem?_marker hmarker (by omega))
    · rw [State.shiftBuf_count, State.bump_count] at hk
      rw [State.shiftBuf_getElem?_lt (by simpa using hc) (by simpa using hk), State.bump_buf, h.holds _ (by omega),
        Nat.add_assoc, Nat.add_comm i k]
  · refine ⟨n, ?_⟩
    rw [ht]
    refine Tracks.respond ⟨by simp, ?_, fun k hk => absurd hk (Nat.not_lt_zero k)⟩ _ _
    by_contra hpass
    exact State.nextMarker_eq_none.1 hnone (g - p) (by omega) (by omega) (h.getElem?_marker hmarker (by omega))

/-- A complete frame is a window of the stream. -/
theorem Tracks.frame_eq_windowAt (hc : s.cfg.frameSize ≤ s.count) : s.frame = windowAt s.cfg stream p := by
  refine List.ext_getElem? fun k => ?_
  simp only [State.frame, windowAt, List.getElem?_take, List.getElem?_drop]
  split
  · exact h.holds k (by omega)
  · rfl

end

/-! ## The tests after the append -/

/-- What a byte before the frame's last leaves: no handler runs, the bytes held are tracked, and the answer is quiet. -/
structure QuietlyTracks (stream : List Byte) (g n : Nat) (s t : State) : Prop where
  phase : t.phase ≠ .dispatching
  tracks : ∃ q, Tracks stream g n q t
  output : ∃ o, t.outputs = s.outputs ++ [o] ∧ Quiet o

theorem resync_phase_ne_dispatching {s : State} (hp : s.phase ≠ .dispatching) (cause : DropCause) :
    (s.resync cause).phase ≠ .dispatching := by
  rcases s.resync_cases cause with ⟨i, -, h⟩ | ⟨-, h⟩
  · simpa [h] using hp
  · simp [h]

theorem resync_quiet (s : State) (cause : DropCause) :
    ∃ o, (s.resync cause).outputs = s.outputs ++ [o] ∧ Quiet o := by
  rcases s.resync_cases cause with ⟨i, -, h⟩ | ⟨-, h⟩
  · exact ⟨⟨.ok, [.drop cause (.shift i)]⟩, by simp [h], rfl, rfl⟩
  · exact ⟨⟨.ok, [.drop cause .empty]⟩, by simp [h], rfl, rfl⟩

theorem quietlyTracks_resync {stream : List Byte} {g n p : Nat} {s : State} (h : Tracks stream g n p s)
    (happ : Appended s) (hmarker : stream[g]? = some s.cfg.marker) (hp : p < g) (cause : DropCause) :
    QuietlyTracks stream g n s (s.resync cause) :=
  ⟨resync_phase_ne_dispatching (by simp [happ.phase]) cause, h.resync hmarker hp happ.count_le_length cause,
    resync_quiet s cause⟩

theorem quietlyTracks_bump_resync {stream : List Byte} {g n p : Nat} {s : State} (h : Tracks stream g n p s)
    (happ : Appended s) (hmarker : stream[g]? = some s.cfg.marker) (hp : p < g) (m : CounterName) (cause : DropCause) :
    QuietlyTracks stream g n s ((s.bump m).resync cause) := by
  obtain ⟨hphase, htracks, houtput⟩ :=
    quietlyTracks_resync (h.bump m) (happ.bump m) (by simpa using hmarker) hp cause
  exact ⟨hphase, htracks, by simpa using houtput⟩

theorem getElem?_one_eq_frameType {s : State} (h : 1 < s.buf.length) : s.buf[1]? = some s.frameType := by
  rw [State.frameType, List.getD_eq_getElem?_getD, List.getElem?_eq_getElem h, Option.getD_some]

/-- Bytes that are dropped, or that complete a frame before the stream's end, begin before the frame; what begins there
does not verify with a type in range, so no byte before the last is delivered. -/
theorem quietlyTracks_afterAppend {stream : List Byte} {g n p : Nat} {u t : State} (h : Tracks stream g n p u)
    (happ : Appended u) (hmarker : stream[g]? = some u.cfg.marker) (hwin : NoValidWindow u.cfg stream g)
    (hn : n < g + u.cfg.frameSize) (ht : u.afterAppend = .next t) : QuietlyTracks stream g n u t := by
  have hends := h.ends
  have hsize := happ.shape.frameSize_ge
  have hfirst : u.buf[0]? = stream[p]? := h.holds 0 happ.nonempty
  rcases State.afterAppend_next ht with ⟨hm, rfl⟩ | ⟨-, -, rfl⟩ | ⟨-, hc, -, rfl⟩ | ⟨-, hc, -, -, rfl⟩ |
    ⟨hm, hc, hv, hr, -⟩
  · have hne : p ≠ g := by
      rintro rfl
      simp [State.markerOk, hfirst, hmarker] at hm
    exact quietlyTracks_resync h happ hmarker (lt_of_le_of_ne h.start hne) .framing
  · exact ⟨by simp [happ.phase], ⟨p, h.respond _ _⟩, _, State.respond_outputs u .ok [], rfl, rfl⟩
  · exact quietlyTracks_bump_resync h happ hmarker (by omega) .checksum .checksum
  · exact quietlyTracks_bump_resync h happ hmarker (by omega) .unkType .unknownType
  · have hone : stream[p + 1]? = some u.frameType := by
      rw [← h.holds 1 (by omega), getElem?_one_eq_frameType (by rw [happ.shape.buf]; omega)]
    refine absurd ⟨?_, u.frameType, hone, by simpa [typeInRange] using hr⟩
      (hwin p (by omega) (hfirst.symm.trans (markerOk_eq_true.1 hm)))
    rw [← h.frame_eq_windowAt hc, hv]

/-! ## The bytes of the stream, one RXB each -/

/-- From s₀ the first n bytes of the stream have left the framer in s, with no delivery. -/
structure Hunting (s₀ : State) (stream : List Byte) (g n : Nat) (s : State) : Prop where
  inv : Inv s
  phase : s.phase ≠ .dispatching
  rest : KeepsRest s₀ s
  tracks : ∃ p, Tracks stream g n p s
  outputs : ∃ outs, s.outputs = s₀.outputs ++ outs ∧ outs.length = n ∧ ∀ o ∈ outs, Quiet o

theorem hunting_zero {s₀ : State} (h : Inv s₀) (hp : s₀.phase = .idle) (stream : List Byte) (g : Nat) :
    Hunting s₀ stream g 0 s₀ where
  inv := h
  phase := phase_ne_dispatching_of_idle hp
  rest := ⟨rfl, rfl, rfl, rfl, rfl⟩
  tracks := ⟨0, by simp [h.idle.1 hp], Nat.zero_le g, by simp [h.idle.1 hp]⟩
  outputs := ⟨[], by simp, rfl, by simp⟩

/-- A byte before the frame's last keeps the framer hunting. -/
theorem Hunting.exec_rxb {s₀ s : State} {stream : List Byte} {g n : Nat} {b : Byte} (h : Hunting s₀ stream g n s)
    (hf : s₀.fault = none) (hmarker : stream[g]? = some s₀.cfg.marker) (hwin : NoValidWindow s₀.cfg stream g)
    (hn : n + 1 < g + s₀.cfg.frameSize) (hb : stream[n]? = some b) (now : Nat) :
    ∃ t, exec (.rxb b now) s = .next t ∧ Hunting s₀ stream g (n + 1) t := by
  obtain ⟨hinv, hphase, hrest, ⟨p, htracks⟩, outs, houts, hlen, hquiet⟩ := h
  have ⟨hcfg, _, _, hfault, _⟩ := hrest
  obtain ⟨t, ht⟩ := hinv.answers_exec (.rxb b now)
  have hafter := (hinv.exec_rxb b now (hfault.trans hf) hphase).symm.trans ht
  obtain ⟨htphase, httracks, o, ho, hoquiet⟩ :=
    quietlyTracks_afterAppend (htracks.received hb (hinv.count_lt_length hphase) now)
      (hinv.appended_received b now hphase) (by simpa [hcfg] using hmarker) (by simpa [hcfg] using hwin)
      (by simpa [hcfg] using hn) hafter
  have hkeeps : KeepsRest s t := KeepsRest.trans (by simp [KeepsRest]) (afterAppend_keepsRest hafter)
  refine ⟨t, ht, hinv.exec ht, htphase, hrest.trans hkeeps, httracks, outs ++ [o], ?_, by simp [hlen], ?_⟩
  · rw [ho, State.received_outputs, houts, List.append_assoc]
  · simp only [List.mem_append, List.mem_singleton]
    rintro o' (ho' | rfl)
    · exact hquiet o' ho'
    · exact hoquiet

theorem runInstrs_append {xs : List Instr} (ys : List Instr) {s t : State} (h : runInstrs xs s = .next t) :
    runInstrs (xs ++ ys) s = runInstrs ys t := by
  induction xs generalizing s with
  | nil => cases h; rfl
  | cons i xs ih =>
    simp only [List.cons_append, runInstrs] at h ⊢
    split at h
    · next u hu => simpa [hu] using ih h
    · cases h
    · cases h

/-- One more byte of a stream is one more RXB. -/
theorem runInstrs_take_succ {stream : List Byte} {n now : Nat} {s t u : State} (hn : n < stream.length)
    (ht : runInstrs ((stream.take n).map fun b => .rxb b now) s = .next t)
    (hu : exec (.rxb stream[n] now) t = .next u) :
    runInstrs ((stream.take (n + 1)).map fun b => .rxb b now) s = .next u := by
  rw [List.take_succ_eq_append_getElem hn, List.map_append, runInstrs_append _ ht]
  simp [runInstrs, hu]

/-- All but the last byte of a stream that ends with the frame leave the framer hunting. -/
theorem hunting_of_lt {s₀ : State} {stream : List Byte} {g : Nat} (h : Inv s₀) (hf : s₀.fault = none)
    (hp : s₀.phase = .idle) (hmarker : stream[g]? = some s₀.cfg.marker) (hwin : NoValidWindow s₀.cfg stream g)
    (hlen : stream.length = g + s₀.cfg.frameSize) (now : Nat) {n : Nat} (hn : n < stream.length) :
    ∃ t, runInstrs ((stream.take n).map fun b => .rxb b now) s₀ = .next t ∧ Hunting s₀ stream g n t := by
  induction n with
  | zero => exact ⟨s₀, rfl, hunting_zero h hp stream g⟩
  | succ n ih =>
    have hn' : n < stream.length := by omega
    obtain ⟨t, ht, hhunt⟩ := ih hn'
    obtain ⟨u, hu, hhunt'⟩ :=
      hhunt.exec_rxb hf hmarker hwin (by omega) (List.getElem?_eq_getElem hn') now
    exact ⟨u, runInstrs_take_succ hn' ht hu, hhunt'⟩

/-! ## The last byte -/

/-- The byte that completes a valid frame of a registered type invokes the handler (42_dispatch.md R165). -/
theorem Inv.exec_rxb_of_deliver {s : State} (h : Inv s) {b ty : Byte} {hd : HandlerId} (now : Nat) (hf : s.fault = none)
    (hp : s.phase = .accumulating) (hc : s.count + 1 = s.cfg.frameSize)
    (hv : verify s.cfg.payloadCap (completedBy s b) = true) (hty : (completedBy s b)[1]? = some ty)
    (hrange : ty.toNat < s.cfg.typeCount) (hhd : s.handlers[ty.toNat]? = some (some hd)) :
    Machine.exec (.rxb b now) s = .next ((s.received b now).deliver hd) := by
  have htype := h.frameType_received b now hc hty
  rw [h.exec_rxb b now hf (phase_ne_dispatching_of_accumulating hp), State.afterAppend_of_valid, htype]
  · exact State.complete_of_some (by simpa using hhd)
  · exact h.markerOk_received_of_accumulating b now hp
  · simp [hc]
  · simpa [h.frame_received b now hc] using hv
  · simpa [typeInRange, htype] using hrange

theorem verify_buildFrame {c : Config} {flags ty : Byte} {payload : Option (List Byte)} {len : Nat}
    (h : payloadTooShort c payload len = false) :
    verify c.payloadCap (buildFrame c flags ty payload len) = true :=
  verify_append_checksumBytes _ _ (coveredBytes_length h)

/-- One byte before the frame's end the framer holds all of the frame but that byte. -/
theorem Hunting.completedBy_eq_frame {s₀ s : State} {garbage frame : List Byte} {n : Nat} {b : Byte}
    (h : Hunting s₀ (garbage ++ frame) garbage.length n s) (hlen : frame.length = s₀.cfg.frameSize)
    (hn : n + 1 = garbage.length + s₀.cfg.frameSize) (hb : (garbage ++ frame)[n]? = some b) :
    s.phase = .accumulating ∧ s.count + 1 = s.cfg.frameSize ∧ completedBy s b = frame := by
  obtain ⟨hinv, hphase, ⟨hcfg, -⟩, ⟨p, htracks⟩, -⟩ := h
  have hroom := hinv.count_lt_frameSize hphase
  have hsize := hinv.shape.frameSize_ge
  have hends := htracks.ends
  have hstart := htracks.start
  rw [← hcfg] at hlen hn
  have hc : s.count + 1 = s.cfg.frameSize := by omega
  obtain rfl : p = garbage.length := by omega
  have hacc : s.phase = .accumulating := by
    cases hp : s.phase with
    | idle => have := hinv.idle.1 hp; omega
    | accumulating => rfl
    | dispatching => exact absurd hp hphase
  refine ⟨hacc, hc, ?_⟩
  have hwindow := (htracks.received hb (hinv.count_lt_length hphase) 0).frame_eq_windowAt (by simp [hc])
  rw [hinv.frame_received b 0 hc, State.received_cfg, windowAt, List.drop_left, ← hlen, List.take_length] at hwindow
  exact hwindow

/-- Any frame of the receiver's that verifies is delivered after garbage that holds no valid window. -/
theorem runInstrs_garbage_frame {s : State} {garbage frame : List Byte} {ty : Byte} {hd : HandlerId} (h : Inv s)
    (hf : s.fault = none) (hp : s.phase = .idle) (hlen : frame.length = s.cfg.frameSize)
    (hmarker : frame[0]? = some s.cfg.marker) (hty : frame[1]? = some ty)
    (hverify : verify s.cfg.payloadCap frame = true) (hrange : ty.toNat < s.cfg.typeCount)
    (hhd : s.handlers[ty.toNat]? = some (some hd)) (hwin : NoValidWindow s.cfg (garbage ++ frame) garbage.length)
    (now : Nat) :
    ∃ t outs, runInstrs ((garbage ++ frame).map fun b => .rxb b now) s = .next t ∧ t.phase = .dispatching ∧
      t.buf = frame ∧ t.outputs = s.outputs ++ outs ++ [⟨.ok, [.deliver hd frame]⟩] ∧
      outs.length + 1 = garbage.length + s.cfg.frameSize ∧ ∀ o ∈ outs, Quiet o := by
  have hsize := h.shape.frameSize_ge
  have htotal : (garbage ++ frame).length = garbage.length + s.cfg.frameSize := by rw [List.length_append, hlen]
  have hfirst : (garbage ++ frame)[garbage.length]? = some s.cfg.marker := by
    rw [List.getElem?_append_right le_rfl, Nat.sub_self, hmarker]
  have hlast : garbage.length + s.cfg.frameSize - 1 < (garbage ++ frame).length := by omega
  obtain ⟨t, ht, hhunt⟩ := hunting_of_lt h hf hp hfirst hwin htotal now hlast
  obtain ⟨hacc, hc, hcompleted⟩ :=
    hhunt.completedBy_eq_frame hlen (by omega) (List.getElem?_eq_getElem hlast)
  obtain ⟨hinv, -, ⟨hcfg, hhandlers, -, hfault, -⟩, -, outs, houts, houtsLen, hquiet⟩ := hhunt
  have hdeliver := hinv.exec_rxb_of_deliver now (hfault.trans hf) hacc hc (by rwa [hcompleted, hcfg])
    (by rwa [hcompleted]) (by rwa [hcfg]) (by rwa [hhandlers])
  have hrun := runInstrs_take_succ hlast ht hdeliver
  rw [List.take_of_length_le (by omega)] at hrun
  refine ⟨_, outs, hrun, State.deliver_phase _ hd, ?_, ?_, by omega, hquiet⟩
  · rw [State.deliver_buf, hinv.received_buf_eq_completedBy _ now hc, hcompleted]
  · rw [State.deliver_outputs, hinv.frame_received _ now hc, hcompleted, State.received_outputs, houts]

end Sys2Proof.Safety

open Sys2Proof Sys2Proof.Machine Sys2Proof.Safety

/-- Settles O52, by induction on the bytes before the last, which leave the framer hunting; the last one completes the
frame, and a built frame verifies. -/
theorem aFrameAfterGarbageIsDeliveredOnce : Obligations.AFrameAfterGarbageIsDeliveredOnce := by
  intro s garbage flags ty payload len hd now h hf hp hrange hhd hshort hgarbage
  obtain ⟨hmarker, hty, -⟩ := buildFrame_header s.cfg flags ty payload len
  refine runInstrs_garbage_frame h hf hp (buildFrame_length hshort) hmarker hty (verify_buildFrame hshort) hrange hhd
    ?_ now
  intro p hp hpm
  rw [List.getElem?_append_left hp] at hpm
  exact hgarbage p hp hpm
end

section
/-! The byte that completes a valid frame of a type in range (spec/42_dispatch.md R165, R167), and REG's two outcomes
(R160, R162). -/

namespace Sys2Proof.Safety

open Sys2Proof Sys2Proof.Machine

/-- RXB of the byte that completes a valid frame is the lookup of the frame's type (41_framing.md R127). -/
theorem Inv.exec_rxb_eq_complete {s : State} (h : Inv s) {b ty : Byte} (now : Nat) (hf : s.fault = none)
    (hp : s.phase = .accumulating) (hc : s.count + 1 = s.cfg.frameSize)
    (hv : verify s.cfg.payloadCap (completedBy s b) = true) (hty : (completedBy s b)[1]? = some ty)
    (hrange : ty.toNat < s.cfg.typeCount) :
    Machine.exec (.rxb b now) s = (s.received b now).complete ty := by
  have htype := h.frameType_received b now hc hty
  rw [h.exec_rxb b now hf (phase_ne_dispatching_of_accumulating hp), State.afterAppend_of_valid, htype]
  · exact h.markerOk_received_of_accumulating b now hp
  · simp [hc]
  · simpa [h.frame_received b now hc] using hv
  · simpa [typeInRange, htype] using hrange

theorem exec_reg_of_lt {s : State} {ty : Byte} (hd : HandlerId) (hf : s.fault = none)
    (hrange : ty.toNat < s.cfg.typeCount) (hlen : ty.toNat < s.handlers.length) :
    exec (.reg ty hd) s = .next (State.respond { s with handlers := s.handlers.set ty.toNat (some hd) } .ok) := by
  rw [exec, execReg, unlessFaulted_none hf, if_pos (by simpa [typeInRange] using hrange),
    State.setHandler_eq_some.2 ⟨hlen, rfl⟩]

theorem exec_reg_of_ge {s : State} {ty : Byte} (hd : HandlerId) (hf : s.fault = none)
    (hrange : s.cfg.typeCount ≤ ty.toNat) : exec (.reg ty hd) s = .next (s.refuse .typeRange) := by
  rw [exec, execReg, unlessFaulted_none hf, if_neg (by simpa [typeInRange] using hrange)]

end Sys2Proof.Safety

open Sys2Proof Sys2Proof.Machine Sys2Proof.Safety

/-- Settles O27: the lookup finds the handler, and the delivery is read off field by field. -/
theorem rxbOfAValidFrameDelivers : Obligations.RxbOfAValidFrameDelivers := by
  intro s b ty hd now h hf hp hc hv hty hrange hhd
  refine ⟨_, h.exec_rxb_of_deliver now hf hp hc hv hty hrange hhd, by simp, by simp [hc], ?_, by simp [hp],
    by simp [KeepsRest], ?_, gives_of_outputs ?_⟩
  · rw [State.deliver_buf, h.received_buf_eq_completedBy b now hc]
  · exact counts_of_bump (u := s.received b now) (by simp) (by simp) (by simp)
  · rw [State.deliver_outputs, State.received_outputs, h.frame_received b now hc]

/-- Settles O28: the lookup finds no handler, and the drop, which is no resynchronization, is read off field by field. -/
theorem rxbOfAnUnregisteredTypeDropsTheFrame : Obligations.RxbOfAnUnregisteredTypeDropsTheFrame := by
  intro s b ty now h hf hp hc hv hty hrange hnone
  have hlookup : (s.received b now).handlers[ty.toNat]? = some none := by simpa using hnone
  refine ⟨_, (h.exec_rxb_eq_complete now hf hp hc hv hty hrange).trans (State.complete_of_none hlookup), by simp,
    by simp, ?_, by simp [hp], by simp [KeepsRest], ?_, gives_of_outputs (by simp)⟩
  · rw [State.dropUnregistered_buf, h.received_buf_eq_completedBy b now hc]
  · exact counts_of_bump (u := s.received b now) (by simp) (by simp) (by simp)

/-- Settles O38: in range, REG is an update of the table at one index; out of range, a refusal. -/
theorem regWritesOneHandlerEntry : Obligations.RegWritesOneHandlerEntry := by
  refine ⟨fun s ty hd hf hlen hrange => ?_, fun s ty hd hf hrange => ⟨_, exec_reg_of_ge hd hf hrange, rfl⟩⟩
  have hlt : ty.toNat < s.handlers.length := by rwa [hlen]
  refine ⟨_, exec_reg_of_lt hd hf hrange hlt, ?_, fun k hk => ?_, rfl⟩
  · exact List.getElem?_set_self hlt
  · exact List.getElem?_set_ne hk.symm
end

section
/-! The sender (spec/43_sender.md): SEND's outcomes and the bytes of the frame it builds (R180 to R184), the command
behind a TX event (R182), and SETF's and SETC's outcomes (R185, R186). -/

namespace Sys2Proof.Safety

open Sys2Proof Sys2Proof.Machine

/-! ## SEND's outcomes -/

/-- A payload is long enough when it is absent or has min(len, P) bytes (43_sender.md R180). -/
theorem payloadTooShort_eq_false_iff {c : Config} {payload : Option (List Byte)} {len : Nat} :
    payloadTooShort c payload len = false ↔ ∀ p, payload = some p → min len c.payloadCap ≤ p.length := by
  cases payload with
  | none => simp [payloadTooShort]
  | some p =>
    constructor
    · rintro h _ ⟨⟩
      exact not_lt.1 (of_decide_eq_false h)
    · exact fun h => decide_eq_false (not_lt.2 (h p rfl))

section

variable {s : State} {ty : Byte} {payload : Option (List Byte)} {len : Nat} (hf : s.fault = none)
  (hp : s.phase ≠ .dispatching)

include hf hp

theorem exec_send_of_short (h : payloadTooShort s.cfg payload len = true) :
    exec (.send ty payload len) s = .next (s.raise .payloadShort) := by
  rw [exec, execSend, unlessFaulted_none hf, unlessDispatching_other hp, if_pos h]

theorem exec_send_of_enough (h : payloadTooShort s.cfg payload len = false) :
    exec (.send ty payload len) s = .next (s.transmit (buildFrame s.cfg s.txFlags ty payload len)) := by
  rw [exec, execSend, unlessFaulted_none hf, unlessDispatching_other hp, if_neg (by simp [h])]

end

/-- Transmission writes the counters and the outputs only (43_sender.md R184). -/
theorem transmit_eq (s : State) (f : List Byte) :
    s.transmit f =
      { s with counters := (s.transmit f).counters, outputs := s.outputs ++ [⟨.ok, [.tx f]⟩] } := by
  by_cases hc : s.cfg.hasCounters = true
  · simp [State.transmit, State.bump, State.respond, hc]
  · simp [State.transmit, State.bump, State.respond, hc]

/-! ## The bytes of a built frame -/

section

variable {c : Config} {len j : Nat}

/-- Below min(len, P) the payload field holds the caller's bytes (43_sender.md R181). -/
theorem payloadField_getElem?_of_lt {p : List Byte} (h : min len c.payloadCap ≤ p.length) (hj : j < c.payloadCap)
    (hlen : j < len) : (payloadField c (some p) len)[j]? = p[j]? := by
  have hcopied : j < min len c.payloadCap := lt_min hlen hj
  rw [payloadField, copyLength, List.getElem?_append_left (by rw [List.length_take]; omega),
    List.getElem?_take_of_lt hcopied]

variable {payload : Option (List Byte)} (h : payloadTooShort c payload len = false)

include h

/-- From min(len, P) on, and everywhere when the payload is absent, the payload field holds zeros (R181). -/
theorem payloadField_getElem?_of_ge (hj : j < c.payloadCap) (hlen : len ≤ j ∨ payload = none) :
    (payloadField c payload len)[j]? = some 0x00 := by
  cases payload with
  | none => simp [payloadField, hj]
  | some p =>
    have hle : len ≤ j := by simpa using hlen
    have hp := payloadTooShort_eq_false_iff.1 h p rfl
    have htake : (p.take (min len c.payloadCap)).length = min len c.payloadCap := List.length_take_of_le hp
    rw [payloadField, copyLength, List.getElem?_append_right (by omega), htake, List.getElem?_replicate,
      if_pos (by omega)]

/-- The payload field stands right behind the three bytes of the header (30_encoding.md R70). -/
theorem buildFrame_getElem?_payload (flags ty : Byte) (hj : j < c.payloadCap) :
    (buildFrame c flags ty payload len)[3 + j]? = (payloadField c payload len)[j]? := by
  rw [buildFrame, List.getElem?_append_left (by rw [coveredBytes_length h]; omega), coveredBytes,
    List.getElem?_append_right (by simp), List.length_cons, List.length_cons, List.length_singleton,
    Nat.add_sub_cancel_left]

end

/-! ## The command behind a TX event -/

/-- A TX event comes from a SEND that found its payload long enough, and carries the frame built (R182). -/
theorem exec_tx {i : Instr} {s t : State} {o : Output} {f : List Byte} (h : exec i s = .next t)
    (ho : t.outputs = s.outputs ++ [o]) (he : Event.tx f ∈ o.events) :
    ∃ ty payload len, i = .send ty payload len ∧ payloadTooShort s.cfg payload len = false ∧
      f = buildFrame s.cfg s.txFlags ty payload len := by
  have hevents {r : Response} {evs : List Event} (hout : t.outputs = s.outputs ++ [⟨r, evs⟩]) : Event.tx f ∈ evs := by
    cases output_eq_of_concat (ho.symm.trans hout)
    exact he
  cases i with
  | rxb b now =>
    rcases exec_rxb_next h with ⟨-, rfl⟩ | ⟨-, -, rfl⟩ | ⟨-, -, -, h⟩
    · cases hevents (State.refuse_outputs s _)
    · cases hevents (State.raise_outputs s _)
    · rcases afterAppend_event h (by simpa using ho) he with
        ⟨r, hr, -⟩ | ⟨n, cause, r, hr, -⟩ | ⟨hd, g, hg⟩ | ⟨ty, hty⟩
      · cases hr
      · cases hr
      · cases hg
      · cases hty
  | poll now =>
    rcases execPoll_next h with ⟨-, rfl⟩ | ⟨-, -, rfl⟩ | ⟨-, -, -, rfl⟩ | ⟨-, -, -, rfl⟩
    · cases hevents (State.refuse_outputs s _)
    · cases hevents (State.raise_outputs s _)
    · cases List.mem_singleton.1 (hevents (State.discardPartial_outputs s))
    · cases hevents (State.respond_outputs s _ [])
  | send ty payload len =>
    rcases execSend_next h with ⟨-, rfl⟩ | ⟨-, -, rfl⟩ | ⟨-, -, -, rfl⟩ | ⟨-, -, hshort, rfl⟩
    · cases hevents (State.refuse_outputs s _)
    · cases hevents (State.raise_outputs s _)
    · cases hevents (State.raise_outputs s _)
    · cases List.mem_singleton.1 (hevents (State.transmit_outputs s _))
      exact ⟨ty, payload, len, rfl, hshort, rfl⟩
  | hret =>
    rcases execHret_next h with ⟨-, rfl⟩ | ⟨-, -, rfl⟩ | ⟨-, -, rfl⟩
    all_goals cases hevents (evs := []) rfl
  | reg ty hd =>
    rcases execReg_next h with ⟨-, rfl⟩ | ⟨-, -, -, rfl⟩ | ⟨-, -, rfl⟩
    all_goals cases hevents (evs := []) rfl
  | setf k v =>
    rcases execSetf_next h with ⟨-, rfl⟩ | ⟨-, -, rfl⟩ | ⟨-, -, rfl⟩
    all_goals cases hevents (evs := []) rfl
  | setc v =>
    rcases execSetc_next h with ⟨-, rfl⟩ | ⟨-, rfl⟩
    all_goals cases hevents (evs := []) rfl
  | rdstat sel =>
    obtain ⟨r, hr, -⟩ := execRdstat_eq sel s
    cases hr.symm.trans h
    cases hevents (State.respond_outputs s _ [])

/-! ## SETF's and SETC's outcomes -/

theorem exec_setf_of_le {s : State} {i : BitVec 3} (v : Bool) (hf : s.fault = none) (hi : i.toNat ≤ 3) :
    exec (.setf i v) s = .next (State.respond { s with txFlags := writeUserFlag s.txFlags i v } .ok) := by
  rw [exec, execSetf, unlessFaulted_none hf, if_pos (by simpa [userFlagInRange] using hi)]

theorem exec_setf_of_gt {s : State} {i : BitVec 3} (v : Bool) (hf : s.fault = none) (hi : 3 < i.toNat) :
    exec (.setf i v) s = .next (s.refuse .flagIndex) := by
  rw [exec, execSetf, unlessFaulted_none hf, if_neg (by simpa [userFlagInRange] using hi)]

theorem exec_setc {s : State} (v : Bool) (hf : s.fault = none) :
    exec (.setc v) s = .next (State.respond { s with txFlags := writeCrit s.txFlags v } .ok) := by
  rw [exec, execSetc, unlessFaulted_none hf]

end Sys2Proof.Safety

open Sys2Proof Sys2Proof.Machine Sys2Proof.Safety

/-- Settles O39: SEND transmits the built frame, whose fields are read off one after another. -/
theorem sendTransmitsOneFrame : Obligations.SendTransmitsOneFrame := by
  intro s ty payload len hf hp hlong
  have hshort := payloadTooShort_eq_false_iff.2 hlong
  obtain ⟨hmarker, hty, hflags⟩ := buildFrame_header s.cfg s.txFlags ty payload len
  obtain ⟨hsum1, hsum2⟩ := buildFrame_checksum (flags := s.txFlags) (ty := ty) hshort
  refine ⟨_, _, exec_send_of_enough hf hp hshort, buildFrame_length hshort, hmarker, hty, hflags, ?copied, ?zeros,
    ?_, ?_, transmit_eq s _, counts_of_bump (u := s) rfl rfl rfl⟩
  case copied =>
    rintro j hj hlen p rfl
    rw [buildFrame_getElem?_payload hshort _ _ hj, payloadField_getElem?_of_lt (hlong p rfl) hj hlen]
  case zeros =>
    intro j hj hlen
    rw [buildFrame_getElem?_payload hshort _ _ hj, payloadField_getElem?_of_ge hshort hj hlen]
  · rw [hsum1, buildFrame_take hshort]
  · rw [hsum2, buildFrame_take hshort]

/-- Settles O40: a TX event carries a built frame, which has its length and its header and verifies. -/
theorem everySentFramePassesTheReceiversChecks : Obligations.EverySentFramePassesTheReceiversChecks := by
  intro s t i o f h ho he
  obtain ⟨ty, payload, len, rfl, hshort, rfl⟩ := exec_tx h ho he
  obtain ⟨hmarker, -, hflags⟩ := buildFrame_header s.cfg s.txFlags ty payload len
  exact ⟨⟨ty, payload, len, rfl⟩, buildFrame_length hshort, hmarker, verify_buildFrame hshort, hflags⟩

/-- Settles O36: fewer bytes than len and than P are fewer than min(len, P). -/
theorem shortPayloadRaisesTheFault : Obligations.ShortPayloadRaisesTheFault := by
  intro s ty p len hf hp hlen hcap
  have hshort : payloadTooShort s.cfg (some p) len = true := decide_eq_true (lt_min hlen hcap)
  exact exec_send_of_short hf hp hshort

/-- Settles O42: in range, SETF writes one bit of tx_flags; out of range, it is refused. -/
theorem setfWritesOneUserFlag : Obligations.SetfWritesOneUserFlag := by
  refine ⟨fun s i v hf hi => ?_, fun s i v hf hi => ⟨_, exec_setf_of_gt v hf hi, rfl⟩⟩
  exact ⟨_, exec_setf_of_le v hf hi, fun k _ => getLsbD_setBit s.txFlags i.isLt v k, rfl⟩

/-- Settles O43: SETC writes bit 7 of tx_flags. -/
theorem setcWritesTheCriticalBit : Obligations.SetcWritesTheCriticalBit :=
  fun s v hf => ⟨_, exec_setc v hf, fun k _ => getLsbD_setBit s.txFlags (by decide) v k, rfl⟩
end

section
/-! A sent frame with nothing before it (spec/95_test_vectors.md 1.1, spec/43_sender.md R182): the framer holds the
frame from its first byte on, so no byte is dropped. -/

namespace Sys2Proof.Safety

open Sys2Proof Sys2Proof.Machine

/-- While the bytes held begin at the frame's MARKER, an RXB before the frame's last only appends (R124). -/
theorem Hunting.exec_rxb_of_frame {s₀ s : State} {frame : List Byte} {n : Nat} {b : Byte}
    (h : Hunting s₀ frame 0 n s) (hf : s₀.fault = none) (hmarker : frame[0]? = some s₀.cfg.marker)
    (hn : n + 1 < s₀.cfg.frameSize) (hb : frame[n]? = some b) (now : Nat) :
    Machine.exec (.rxb b now) s = .next ((s.received b now).respond .ok) := by
  obtain ⟨hinv, hphase, ⟨hcfg, -, -, hfault, -⟩, ⟨p, htracks⟩, -⟩ := h
  obtain rfl : p = 0 := Nat.le_zero.1 htracks.start
  have hcount : 0 + s.count = n := htracks.ends
  have hfirst : (s.received b now).buf[0]? = frame[0]? :=
    (htracks.received hb (hinv.count_lt_length hphase) now).holds 0 (by simp)
  refine hinv.exec_rxb_of_partial b now (hfault.trans hf) hphase (markerOk_eq_true.2 ?_) (by rw [hcfg]; omega)
  rw [hfirst, hmarker, State.received_cfg, hcfg]

/-- All but the last byte of a frame are answered OK with no event. -/
theorem runInstrs_frame_take {s : State} {frame : List Byte} (h : Inv s) (hf : s.fault = none) (hp : s.phase = .idle)
    (hlen : frame.length = s.cfg.frameSize) (hmarker : frame[0]? = some s.cfg.marker) (now : Nat) {n : Nat}
    (hn : n < frame.length) :
    ∃ t, runInstrs ((frame.take n).map fun b => .rxb b now) s = .next t ∧ Hunting s frame 0 n t ∧
      t.outputs = s.outputs ++ List.replicate n ⟨.ok, []⟩ := by
  induction n with
  | zero => exact ⟨s, rfl, hunting_zero h hp frame 0, by simp⟩
  | succ n ih =>
    have hn' : n < frame.length := by omega
    have hb : frame[n]? = some frame[n] := List.getElem?_eq_getElem hn'
    obtain ⟨t, ht, hhunt, houts⟩ := ih hn'
    have hnowin : NoValidWindow s.cfg frame 0 := fun p hp => absurd hp (Nat.not_lt_zero p)
    have hexec := hhunt.exec_rxb_of_frame hf hmarker (by omega) hb now
    obtain ⟨u, hu, hhunt'⟩ := hhunt.exec_rxb hf hmarker hnowin (by omega) hb now
    cases hexec.symm.trans hu
    refine ⟨_, runInstrs_take_succ hn' ht hexec, hhunt', ?_⟩
    rw [State.respond_outputs, State.received_outputs, houts, List.append_assoc, List.replicate_succ']

/-- Any frame of the receiver's that verifies is delivered by its last byte, and the others give nothing. -/
theorem runInstrs_frame {s : State} {frame : List Byte} {ty : Byte} {hd : HandlerId} (h : Inv s) (hf : s.fault = none)
    (hp : s.phase = .idle) (hlen : frame.length = s.cfg.frameSize) (hmarker : frame[0]? = some s.cfg.marker)
    (hty : frame[1]? = some ty) (hverify : verify s.cfg.payloadCap frame = true) (hrange : ty.toNat < s.cfg.typeCount)
    (hhd : s.handlers[ty.toNat]? = some (some hd)) (now : Nat) :
    ∃ t, runInstrs (frame.map fun b => .rxb b now) s = .next t ∧ t.phase = .dispatching ∧
      t.outputs = s.outputs ++ List.replicate (s.cfg.frameSize - 1) ⟨.ok, []⟩ ++ [⟨.ok, [.deliver hd frame]⟩] := by
  have hsize := h.shape.frameSize_ge
  have hlast : s.cfg.frameSize - 1 < frame.length := by omega
  obtain ⟨t, ht, hhunt, houts⟩ := runInstrs_frame_take h hf hp hlen hmarker now hlast
  obtain ⟨hacc, hc, hcompleted⟩ := hhunt.completedBy_eq_frame (garbage := []) hlen (by simp; omega)
    (List.getElem?_eq_getElem hlast)
  obtain ⟨hinv, -, ⟨hcfg, hhandlers, -, hfault, -⟩, -⟩ := hhunt
  have hdeliver := hinv.exec_rxb_of_deliver now (hfault.trans hf) hacc hc (by rwa [hcompleted, hcfg])
    (by rwa [hcompleted]) (by rwa [hcfg]) (by rwa [hhandlers])
  have hrun := runInstrs_take_succ hlast ht hdeliver
  rw [List.take_of_length_le (by omega)] at hrun
  refine ⟨_, hrun, State.deliver_phase _ hd, ?_⟩
  rw [State.deliver_outputs, hinv.frame_received _ now hc, hcompleted, State.received_outputs, houts]

end Sys2Proof.Safety

open Sys2Proof Sys2Proof.Machine Sys2Proof.Safety

/-- Settles O51, by induction on the bytes before the last, which the framer only appends; the last one completes the
frame, and a built frame verifies. -/
theorem sentFrameIsDeliveredExactlyOnce : Obligations.SentFrameIsDeliveredExactlyOnce := by
  intro s flags ty payload len hd now h hf hp hrange hhd hshort
  obtain ⟨hmarker, hty, -⟩ := buildFrame_header s.cfg flags ty payload len
  exact runInstrs_frame h hf hp (buildFrame_length hshort) hmarker hty (verify_buildFrame hshort) hrange hhd now
end

section
/-! The counters count events (spec/44_status.md R200 to R204). A command gives at most one event, and the counters that
grow are those the event's kind names. -/

namespace Sys2Proof.Machine

open Sys2Proof

/-- The counters that an event increments: CNT_RESYNC at every drop, and its cause's own where there is one (R201); the
others' events have one counter each (R202 to R204). -/
def Event.counters : Event → List CounterName
  | .tx _ => [.tx]
  | .deliver _ _ => [.deliver]
  | .drop .framing _ => [.resync]
  | .drop .checksum _ => [.checksum, .resync]
  | .drop .unknownType _ => [.unkType, .resync]
  | .unregistered _ => [.unreg]
  | .timeout => [.timeout]

theorem Counters.eq_of_get {c d : Counters} (h : ∀ n, c.get n = d.get n) : c = d := by
  cases c
  cases d
  rw [Counters.mk.injEq]
  exact ⟨h .resync, h .checksum, h .timeout, h .deliver, h .unkType, h .unreg, h .tx⟩

end Sys2Proof.Machine

namespace Sys2Proof.Safety

open Sys2Proof Sys2Proof.Machine

/-- From s to t one output is given back, and each counter grows mod 2^32 by the number of its events in it; without
counters all are kept (R200). -/
def CountsEvents (s t : State) : Prop :=
  ∃ o : Output, t.outputs = s.outputs ++ [o] ∧
    ∀ n, t.counters.get n = if s.cfg.hasCounters then
      s.counters.get n + BitVec.ofNat 32 (o.events.countP (n ∈ ·.counters)) else s.counters.get n

theorem CountsEvents.counters_eq {s t : State} (h : CountsEvents s t) (hc : s.cfg.hasCounters = false) :
    t.counters = s.counters := by
  obtain ⟨o, -, hget⟩ := h
  exact Counters.eq_of_get fun n => by simp [hget n, hc]

/-! ## At most one event -/

theorem countsEvents_of_silent {s t : State} {r : Response} (hout : t.outputs = s.outputs ++ [⟨r, []⟩])
    (hcounters : t.counters = s.counters) : CountsEvents s t :=
  ⟨_, hout, fun n => by simp [hcounters]⟩

theorem countsEvents_of_event {s t : State} {r : Response} {e : Event} (hout : t.outputs = s.outputs ++ [⟨r, [e]⟩])
    (hcounts : Counts s t e.counters) : CountsEvents s t := by
  refine ⟨_, hout, fun n => ?_⟩
  rw [hcounts n]
  by_cases hn : n ∈ e.counters
  · simp [hn]
  · simp [hn]

/-! ## What follows RXB's append -/

/-- Resync gives one drop, whatever it leaves. -/
theorem countsEvents_resync {s v : State} {cause : DropCause} (hout : v.outputs = s.outputs)
    (hcounts : ∀ r, Counts s (v.resync cause) (Event.drop cause r).counters) : CountsEvents s (v.resync cause) := by
  rcases v.resync_cases cause with ⟨i, -, h⟩ | ⟨-, h⟩
  · exact countsEvents_of_event (r := .ok) (e := .drop cause (.shift i)) (by simp [h, hout]) (hcounts _)
  · exact countsEvents_of_event (r := .ok) (e := .drop cause .empty) (by simp [h, hout]) (hcounts _)

/-- A resynchronization after another increment counts both. -/
theorem counts_bump_resync (s : State) {m : CounterName} (hm : m ≠ .resync) (cause : DropCause) :
    Counts s ((s.bump m).resync cause) [m, .resync] :=
  Counts.bump (u := s.bump m) (counts_of_bump rfl rfl rfl) (s.bump_cfg m) (by simpa using hm.symm)
    (resync_counters (s.bump m) cause)

theorem countsEvents_complete {s t : State} {ty : Byte} (h : s.complete ty = .next t) : CountsEvents s t := by
  rcases State.complete_next h with ⟨hd, -, rfl⟩ | ⟨-, rfl⟩
  · exact countsEvents_of_event (State.deliver_outputs s hd) (counts_of_bump (u := s) rfl rfl rfl)
  · exact countsEvents_of_event (State.dropUnregistered_outputs s ty) (counts_of_bump (u := s) rfl rfl rfl)

theorem countsEvents_afterAppend {s t : State} (h : s.afterAppend = .next t) : CountsEvents s t := by
  rcases State.afterAppend_next h with ⟨-, rfl⟩ | ⟨-, -, rfl⟩ | ⟨-, -, -, rfl⟩ | ⟨-, -, -, -, rfl⟩ | ⟨-, -, -, -, h⟩
  · exact countsEvents_resync rfl fun _ => counts_of_bump rfl rfl (resync_counters s .framing)
  · exact countsEvents_of_silent rfl rfl
  · exact countsEvents_resync (s.bump_outputs .checksum) fun _ => counts_bump_resync s (by simp) .checksum
  · exact countsEvents_resync (s.bump_outputs .unkType) fun _ => counts_bump_resync s (by simp) .unknownType
  · exact countsEvents_complete h

/-! ## The instructions -/

/-- RXB counts in what follows its append, POLL a timeout, SEND a frame sent; every other outcome is silent. -/
theorem countsEvents_exec {i : Instr} {s t : State} (h : exec i s = .next t) : CountsEvents s t := by
  cases i with
  | rxb b now =>
    rcases exec_rxb_next h with ⟨-, rfl⟩ | ⟨-, -, rfl⟩ | ⟨-, -, -, h⟩
    · exact countsEvents_of_silent rfl rfl
    · exact countsEvents_of_silent rfl rfl
    · simpa [CountsEvents] using countsEvents_afterAppend h
  | poll now =>
    rcases execPoll_next h with ⟨-, rfl⟩ | ⟨-, -, rfl⟩ | ⟨-, -, -, rfl⟩ | ⟨-, -, -, rfl⟩
    · exact countsEvents_of_silent rfl rfl
    · exact countsEvents_of_silent rfl rfl
    · exact countsEvents_of_event (State.discardPartial_outputs s) (counts_of_bump (u := s.toIdle) rfl rfl rfl)
    · exact countsEvents_of_silent rfl rfl
  | send ty payload len =>
    rcases execSend_next h with ⟨-, rfl⟩ | ⟨-, -, rfl⟩ | ⟨-, -, -, rfl⟩ | ⟨-, -, -, rfl⟩
    · exact countsEvents_of_silent rfl rfl
    · exact countsEvents_of_silent rfl rfl
    · exact countsEvents_of_silent rfl rfl
    · exact countsEvents_of_event (State.transmit_outputs s _) (counts_of_bump (u := s) rfl rfl rfl)
  | hret =>
    rcases execHret_next h with ⟨-, rfl⟩ | ⟨-, -, rfl⟩ | ⟨-, -, rfl⟩
    all_goals exact countsEvents_of_silent rfl rfl
  | reg ty hd =>
    rcases execReg_next h with ⟨-, rfl⟩ | ⟨-, -, -, rfl⟩ | ⟨-, -, rfl⟩
    all_goals exact countsEvents_of_silent rfl rfl
  | setf k v =>
    rcases execSetf_next h with ⟨-, rfl⟩ | ⟨-, -, rfl⟩ | ⟨-, -, rfl⟩
    all_goals exact countsEvents_of_silent rfl rfl
  | setc v =>
    rcases execSetc_next h with ⟨-, rfl⟩ | ⟨-, rfl⟩
    all_goals exact countsEvents_of_silent rfl rfl
  | rdstat sel =>
    obtain ⟨r, hr, -⟩ := execRdstat_eq sel s
    cases hr.symm.trans h
    exact countsEvents_of_silent rfl rfl

theorem countsEvents_runCommand {c : Command} {s t : State} (h : runCommand c s = .next t) : CountsEvents s t := by
  cases hd : decode c with
  | error e =>
    cases (runCommand_error hd).symm.trans h
    exact countsEvents_of_silent rfl rfl
  | ok i => exact countsEvents_exec ((runCommand_ok hd).symm.trans h)

end Sys2Proof.Safety

open Sys2Proof Sys2Proof.Machine Sys2Proof.Safety

/-- Settles O8: every outcome gives at most one event and increments that event's counters. Each of the statement's tests
holds of the events that increment its counter. -/
theorem countersCountEvents : Obligations.CountersCountEvents := by
  intro s t c rest hi hstep
  rw [step_command hi] at hstep
  have hcounts := countsEvents_runCommand hstep
  change CountsEvents s t at hcounts
  refine ⟨hcounts.counters_eq, fun hc => ?_⟩
  obtain ⟨o, hout, hget⟩ := hcounts
  have hgrow (n : CounterName) {p : Event → Bool} (hp : ∀ e : Event, n ∈ e.counters ↔ p e = true) :
      t.counters.get n = s.counters.get n + BitVec.ofNat 32 (o.events.countP p) := by
    rw [hget n, if_pos hc, List.countP_congr fun e _ => by simpa using hp e]
  refine ⟨o, hout, hgrow .resync ?_, hgrow .checksum ?_, hgrow .unkType ?_, hgrow .timeout ?_, hgrow .deliver ?_,
    hgrow .unreg ?_, hgrow .tx ?_⟩
  all_goals
    rintro (_ | _ | ⟨_ | _ | _, _⟩ | _ | _)
    all_goals simp [Event.counters]
end

section
/-! RDSTAT's answers (spec/44_status.md R205, R206): the status word as a number, and the counter a select names. -/

namespace Sys2Proof.Machine

open Sys2Proof

/-- The status word's value, field by field (R205). -/
theorem statusWord_toNat (s : State) :
    (statusWord s).toNat = s.phase.code.toNat + (faultCode s.fault).toNat * 2 ^ 2 + s.count % 2 ^ 16 * 2 ^ 8 +
      s.txFlags.toNat * 2 ^ 24 := by
  have hphase := s.phase.code.isLt
  have hfault := (faultCode s.fault).isLt
  simp only [statusWord, BitVec.toNat_append, BitVec.toNat_ofNat]
  rw [← Nat.shiftLeft_add_eq_or_of_lt hphase, ← Nat.shiftLeft_add_eq_or_of_lt hfault,
    ← Nat.shiftLeft_add_eq_or_of_lt (Nat.mod_lt _ (by decide)), ← Nat.shiftLeft_add_eq_or_of_lt (Nat.mod_lt _ (by decide))]
  simp only [Nat.shiftLeft_eq]
  omega

theorem exec_rdstat_zero (s : State) : exec (.rdstat 0) s = .next (s.respond (.val (statusWord s))) := rfl

theorem ne_zero_of_counterSelect {sel : Byte} {n : CounterName} (h : counterSelect sel = some n) : sel ≠ 0 := by
  rintro rfl
  cases h

theorem exec_rdstat_counter {s : State} {sel : Byte} {n : CounterName} (hsel : counterSelect sel = some n)
    (hc : s.cfg.hasCounters = true) : exec (.rdstat sel) s = .next (s.respond (.val (s.counters.get n))) := by
  rw [exec, execRdstat, if_neg (ne_zero_of_counterSelect hsel)]
  simp [hsel, hc]

theorem exec_rdstat_noCounters {s : State} {sel : Byte} {n : CounterName} (hsel : counterSelect sel = some n)
    (hc : s.cfg.hasCounters = false) : exec (.rdstat sel) s = .next (s.refuse .noCounters) := by
  rw [exec, execRdstat, if_neg (ne_zero_of_counterSelect hsel)]
  simp [hsel, hc]

theorem exec_rdstat_select {sel : Byte} (hsel : 7 < sel.toNat) (s : State) :
    exec (.rdstat sel) s = .next (s.refuse .select) := by
  have hne : sel ≠ 0 := by rintro rfl; cases hsel
  rw [exec, execRdstat, if_neg hne, counterSelect_eq_none.2 (.inr hsel)]

end Sys2Proof.Machine

open Sys2Proof Sys2Proof.Machine Sys2Proof.Safety

/-- Settles O44: the status word field by field, where the count fits its field. -/
theorem statusWordHasTheSpecsLayout : Obligations.StatusWordHasTheSpecsLayout := by
  intro s hcount
  refine ⟨_, _, exec_rdstat_zero s, rfl, ?_⟩
  rw [statusWord_toNat, Nat.mod_eq_of_lt hcount]
  congr 3
  · cases s.phase <;> rfl
  · rcases s.fault with _ | _ | _ <;> rfl

/-- Settles O45: by R30's table of selects with counters; without, by the selects that name one; above 7, none does. -/
theorem rdstatReadsTheSelectedCounter : Obligations.RdstatReadsTheSelectedCounter := by
  intro s
  refine ⟨fun hc => ?_, fun hc sel hlow hhigh => ?_, fun sel hsel => ⟨_, exec_rdstat_select hsel s, rfl⟩⟩
  · have hanswers {sel : Byte} {n : CounterName} (hsel : counterSelect sel = some n) :
        ∃ t, exec (.rdstat sel) s = .next t ∧ OnlyAnswers s t (.val (s.counters.get n)) :=
      ⟨_, exec_rdstat_counter hsel hc, rfl⟩
    simp only [List.forall_mem_cons]
    exact ⟨hanswers (n := .resync) rfl, hanswers (n := .checksum) rfl, hanswers (n := .timeout) rfl,
      hanswers (n := .deliver) rfl, hanswers (n := .unkType) rfl, hanswers (n := .unreg) rfl, hanswers (n := .tx) rfl,
      List.forall_mem_nil _⟩
  · have hnamed : counterSelect sel ≠ none := fun h => by
      have := counterSelect_eq_none.1 h
      omega
    obtain ⟨n, hn⟩ := Option.ne_none_iff_exists'.1 hnamed
    exact ⟨_, exec_rdstat_noCounters hn hc, rfl⟩
end

section
/-! The sticky fault (spec/60_exceptions.md R232 to R234): what raises REENTRANT, what a faulted framer answers, and HRET's
two outcomes (spec/60_exceptions.md R236, spec/42_dispatch.md R166). -/

namespace Sys2Proof.Safety

open Sys2Proof Sys2Proof.Machine

/-! ## The commands and a running handler -/

/-- The two tests before the work of RXB, POLL and SEND, while a handler runs (60_exceptions.md R233). -/
theorem unlessFaulted_unlessDispatching_dispatching {s : State} (work : Result) (hf : s.fault = none)
    (hp : s.phase = .dispatching) : unlessFaulted s (unlessDispatching s work) = .next (s.raise .reentrant) :=
  (unlessFaulted_none hf).trans (unlessDispatching_dispatching hp)

theorem exec_rxb_of_dispatching {s : State} (b : Byte) (now : Nat) (hf : s.fault = none) (hp : s.phase = .dispatching) :
    exec (.rxb b now) s = .next (s.raise .reentrant) :=
  unlessFaulted_unlessDispatching_dispatching _ hf hp

theorem exec_poll_of_dispatching {s : State} (now : Nat) (hf : s.fault = none) (hp : s.phase = .dispatching) :
    exec (.poll now) s = .next (s.raise .reentrant) :=
  unlessFaulted_unlessDispatching_dispatching _ hf hp

theorem exec_send_of_dispatching {s : State} (ty : Byte) (payload : Option (List Byte)) (len : Nat)
    (hf : s.fault = none) (hp : s.phase = .dispatching) :
    exec (.send ty payload len) s = .next (s.raise .reentrant) :=
  unlessFaulted_unlessDispatching_dispatching _ hf hp

theorem exec_hret_of_dispatching {s : State} (hf : s.fault = none) (hp : s.phase = .dispatching) :
    exec .hret s = .next s.endDispatch := by
  rw [exec, execHret, unlessFaulted_none hf, if_pos hp]

theorem exec_hret_of_ne_dispatching {s : State} (hf : s.fault = none) (hp : s.phase ≠ .dispatching) :
    exec .hret s = .next (s.refuse .notDispatching) := by
  rw [exec, execHret, unlessFaulted_none hf, if_neg hp]

/-! ## A fault that is set -/

/-- Every instruction but RDSTAT tests the fault first (60_exceptions.md R234). -/
theorem exec_of_faulted {i : Instr} {s : State} (hf : s.fault ≠ none) (hi : ∀ sel, i ≠ .rdstat sel) :
    exec i s = .next (s.refuse .faulted) := by
  cases i with
  | rdstat sel => exact absurd rfl (hi sel)
  | _ => exact unlessFaulted_faulted hf

/-- RDSTAT of a counter answers the same whatever the fault. -/
theorem exec_rdstat_fault_irrelevant {sel : Byte} (hsel : sel ≠ 0) (s : State) :
    ∃ r, ∀ f, exec (.rdstat sel) { s with fault := f } = .next (State.respond { s with fault := f } r) := by
  cases hname : counterSelect sel with
  | none =>
    have hlarge : 7 < sel.toNat :=
      (counterSelect_eq_none.1 hname).resolve_left fun h => hsel (BitVec.eq_of_toNat_eq h)
    exact ⟨_, fun _ => exec_rdstat_select hlarge _⟩
  | some n =>
    cases hc : s.cfg.hasCounters with
    | true => exact ⟨.val (s.counters.get n), fun f => exec_rdstat_counter (s := { s with fault := f }) hname hc⟩
    | false => exact ⟨_, fun f => exec_rdstat_noCounters (s := { s with fault := f }) hname hc⟩

/-- Bits 3:2 of the status word are the fault code (44_status.md R205). -/
theorem statusWord_fault (s : State) : (statusWord s).extractLsb' 2 2 = faultCode s.fault := by
  have hphase := s.phase.code.isLt
  have hfault := (faultCode s.fault).isLt
  apply BitVec.eq_of_toNat_eq
  rw [BitVec.extractLsb'_toNat, Nat.shiftRight_eq_div_pow, statusWord_toNat]
  omega

theorem exec_keeps_set_fault {i : Instr} {s t : State} (hf : s.fault ≠ none) (h : exec i s = .next t) :
    t.fault = s.fault := by
  by_cases hi : ∃ sel, i = .rdstat sel
  · obtain ⟨sel, rfl⟩ := hi
    obtain ⟨-, ⟨-, -, -, hfault, -⟩, -⟩ := execRdstat_frame h
    exact hfault
  · cases (exec_of_faulted hf (not_exists.1 hi)).symm.trans h
    exact State.refuse_fault s _

end Sys2Proof.Safety

open Sys2Proof Sys2Proof.Machine Sys2Proof.Safety

/-- Settles O35: the three commands make the same two tests, and the second raises the fault. -/
theorem reentrantCommandsRaiseTheFault : Obligations.ReentrantCommandsRaiseTheFault := by
  rintro s _ hf hp (⟨b, now, rfl⟩ | ⟨now, rfl⟩ | ⟨ty, payload, len, rfl⟩)
  · exact exec_rxb_of_dispatching b now hf hp
  · exact exec_poll_of_dispatching now hf hp
  · exact exec_send_of_dispatching ty payload len hf hp

/-- Settles O37: HRET's two outcomes. -/
theorem hretRestoresIdleAndNothingElse : Obligations.HretRestoresIdleAndNothingElse :=
  ⟨fun _ => exec_hret_of_dispatching, fun _ hf hp => ⟨_, exec_hret_of_ne_dispatching hf hp, rfl⟩⟩

/-- Settles O5: the fault test comes before every command's work but RDSTAT's, which reads the fault in the status word
only and writes nothing; so of what a step can do only the reset changes a fault that is set. -/
theorem faultIsStickyUntilReset : Obligations.FaultIsStickyUntilReset := by
  refine ⟨fun s i hf hi => ⟨_, exec_of_faulted hf hi, rfl⟩, fun s sel _ hsel => ?_, fun s _ => ?_,
    fun s t hf hstep hchange => ?_⟩
  · obtain ⟨r, hr⟩ := exec_rdstat_fault_irrelevant hsel s
    exact ⟨_, _, r, hr s.fault, hr none, rfl, rfl⟩
  · have hbits := statusWord_fault s
    exact ⟨_, _, exec_rdstat_zero s, rfl, hbits, fun h => by rw [hbits, h]; rfl, fun h => by rw [hbits, h]; rfl⟩
  · rcases step_next hstep with ⟨-, rfl⟩ | ⟨rest, hi, -⟩ | ⟨c, rest, -, ⟨e, -, rfl⟩ | ⟨i, -, h⟩⟩
    · exact absurd rfl hchange
    · rw [hi, List.head?_cons]
    · exact absurd (State.refuse_fault _ _) hchange
    · exact absurd (exec_keeps_set_fault (s := { s with inputs := rest }) hf h) hchange
end

section
/-! The outcomes of the receive commands outside Dispatching (spec/60_exceptions.md R220, R237): a quiet answer OK that
leaves no handler running, or a delivery into Dispatching. -/

namespace Sys2Proof.Safety

open Sys2Proof Sys2Proof.Machine

/-- What receiving leaves: every error is recovered with a quiet answer OK outside Dispatching, and Dispatching is
entered with a Deliver event alone. -/
inductive ReceiveOutcome (s t : State) : Prop
  | recovered {o : Output} (output : t.outputs = s.outputs ++ [o]) (quiet : Quiet o) (phase : t.phase ≠ .dispatching)
  | delivered {hd : HandlerId} {f : List Byte} (output : t.outputs = s.outputs ++ [⟨.ok, [.deliver hd f]⟩])
      (phase : t.phase = .dispatching)

theorem receiveOutcome_resync {s : State} (hp : s.phase ≠ .dispatching) (cause : DropCause) :
    ReceiveOutcome s (s.resync cause) := by
  obtain ⟨o, ho, hquiet⟩ := resync_quiet s cause
  exact .recovered ho hquiet (resync_phase_ne_dispatching hp cause)

/-- An outcome is of every state that has given the same outputs. -/
theorem ReceiveOutcome.of_outputs_eq {s u t : State} (h : ReceiveOutcome u t) (hout : u.outputs = s.outputs) :
    ReceiveOutcome s t := by
  cases h with
  | recovered output quiet phase => exact .recovered (by rw [output, hout]) quiet phase
  | delivered output phase => exact .delivered (by rw [output, hout]) phase

theorem receiveOutcome_complete {s t : State} {ty : Byte} (h : s.complete ty = .next t) : ReceiveOutcome s t := by
  rcases State.complete_next h with ⟨hd, -, rfl⟩ | ⟨-, rfl⟩
  · exact .delivered (State.deliver_outputs s hd) (State.deliver_phase s hd)
  · exact .recovered (State.dropUnregistered_outputs s ty) ⟨rfl, rfl⟩ (by simp)

theorem receiveOutcome_afterAppend {s t : State} (hp : s.phase ≠ .dispatching) (h : s.afterAppend = .next t) :
    ReceiveOutcome s t := by
  rcases State.afterAppend_next h with ⟨-, rfl⟩ | ⟨-, -, rfl⟩ | ⟨-, -, -, rfl⟩ | ⟨-, -, -, -, rfl⟩ | ⟨-, -, -, -, h⟩
  · exact receiveOutcome_resync hp .framing
  · exact .recovered (State.respond_outputs s .ok []) ⟨rfl, rfl⟩ hp
  · exact (receiveOutcome_resync (by simpa using hp) .checksum).of_outputs_eq (s.bump_outputs .checksum)
  · exact (receiveOutcome_resync (by simpa using hp) .unknownType).of_outputs_eq (s.bump_outputs .unkType)
  · exact receiveOutcome_complete h

theorem receiveOutcome_received_afterAppend {s t : State} {b : Byte} {now : Nat} (hp : s.phase ≠ .dispatching)
    (h : (s.received b now).afterAppend = .next t) : ReceiveOutcome s t := by
  have hphase : (s.received b now).phase ≠ .dispatching := by
    rw [State.received_phase]
    split
    · simp
    · exact hp
  exact (receiveOutcome_afterAppend hphase h).of_outputs_eq (s.received_outputs b now)

theorem Quiet.not_deliver {o : Output} (h : Quiet o) (hd : HandlerId) (f : List Byte) :
    Event.deliver hd f ∉ o.events := by
  obtain ⟨-, hnone⟩ := h
  exact fun he => List.filter_eq_nil_iff.1 hnone _ he rfl

theorem ReceiveOutcome.dispatching_of_deliver {s t : State} {o : Output} {hd : HandlerId} {f : List Byte}
    (h : ReceiveOutcome s t) (ho : t.outputs = s.outputs ++ [o]) (he : Event.deliver hd f ∈ o.events) :
    t.phase = .dispatching := by
  cases h with
  | recovered output quiet _ =>
    cases output_eq_of_concat (ho.symm.trans output)
    exact absurd he (quiet.not_deliver hd f)
  | delivered _ phase => exact phase

/-- A Deliver event comes from an RXB outside Dispatching, and leaves Dispatching. -/
theorem exec_deliver {i : Instr} {s t : State} {o : Output} {hd : HandlerId} {f : List Byte} (h : exec i s = .next t)
    (ho : t.outputs = s.outputs ++ [o]) (he : Event.deliver hd f ∈ o.events) :
    (∃ b now, i = .rxb b now) ∧ s.phase ≠ .dispatching ∧ t.phase = .dispatching := by
  rcases exec_event h ho he with ⟨_, htx⟩ | ⟨-, htimeout⟩ | ⟨b, now, rfl, -, hp, h⟩
  · cases htx
  · cases htimeout
  · exact ⟨⟨b, now, rfl⟩, hp, (receiveOutcome_received_afterAppend hp h).dispatching_of_deliver ho he⟩

/-- Unfaulted and outside Dispatching, RXB gets to the tests after its append, which keep the fault. -/
theorem Inv.exec_rxb_outcome {s : State} (h : Inv s) (b : Byte) (now : Nat) (hf : s.fault = none)
    (hp : s.phase ≠ .dispatching) :
    ∃ t, Machine.exec (.rxb b now) s = .next t ∧ ReceiveOutcome s t ∧ t.fault = none := by
  obtain ⟨t, ht⟩ := h.answers_exec (.rxb b now)
  have hafter := (h.exec_rxb b now hf hp).symm.trans ht
  obtain ⟨-, -, -, hfault, -⟩ := afterAppend_keepsRest hafter
  exact ⟨t, ht, receiveOutcome_received_afterAppend hp hafter, by rw [hfault, State.received_fault, hf]⟩

theorem exec_poll_outcome {s : State} (now : Nat) (hf : s.fault = none) (hp : s.phase ≠ .dispatching) :
    ∃ t, exec (.poll now) s = .next t ∧ ReceiveOutcome s t ∧ t.fault = none := by
  cases ht : s.timedOut now with
  | true =>
    exact ⟨_, exec_poll_timedOut hf hp ht, .recovered (State.discardPartial_outputs s) ⟨rfl, rfl⟩ (by simp),
      (State.discardPartial_fault s).trans hf⟩
  | false => exact ⟨_, exec_poll_quiet hf hp ht, .recovered (State.respond_outputs s .ok []) ⟨rfl, rfl⟩ hp, hf⟩

theorem eq_idle_or_accumulating_of_ne_dispatching {p : Phase} (h : p ≠ .dispatching) : p = .idle ∨ p = .accumulating := by
  cases p with
  | idle => exact .inl rfl
  | accumulating => exact .inr rfl
  | dispatching => exact absurd rfl h

end Sys2Proof.Safety

open Sys2Proof Sys2Proof.Machine Sys2Proof.Safety

/-- Settles O29: each outcome of RXB and of POLL answers OK and is outside Dispatching or a delivery. -/
theorem receiveErrorsAreRecoveredSilently : Obligations.ReceiveErrorsAreRecoveredSilently := by
  intro s i h hf hp hi
  obtain ⟨t, ht, houtcome, hfault⟩ : ∃ t, exec i s = .next t ∧ ReceiveOutcome s t ∧ t.fault = none := by
    rcases hi with ⟨b, now, rfl⟩ | ⟨now, rfl⟩
    · exact h.exec_rxb_outcome b now hf hp
    · exact exec_poll_outcome now hf hp
  cases houtcome with
  | recovered output quiet phase =>
    have hphase := eq_idle_or_accumulating_of_ne_dispatching phase
    exact ⟨t, _, ht, output, quiet.1, hfault, hphase.imp_right .inl⟩
  | delivered output phase => exact ⟨t, _, ht, output, rfl, hfault, .inr (.inr ⟨_, _, rfl⟩)⟩

/-- Settles O11: of what a step can do only an instruction gives an event, and a Deliver event is RXB's, outside
Dispatching. -/
theorem atMostOneHandlerRuns : Obligations.AtMostOneHandlerRuns := by
  refine ⟨fun s t o hd f hstep ho he => ?_, fun s b now hf hp => ?_, fun s t ty hd hp h => ?_⟩
  · rcases step_next hstep with ⟨-, rfl⟩ | ⟨rest, -, rfl⟩ | ⟨c, rest, hi, ⟨e, -, rfl⟩ | ⟨i, hdecode, h⟩⟩
    · exact absurd ho.symm (by simp)
    · exact absurd ho.symm (by simp [State.applyReset])
    · cases output_eq_of_concat (ho.symm.trans (State.refuse_outputs { s with inputs := rest } _))
      cases he
    · obtain ⟨⟨b, now, rfl⟩, hphase, hphase'⟩ := exec_deliver (s := { s with inputs := rest }) h ho he
      exact ⟨⟨c, rest, b, now, hi, hdecode⟩, hphase, hphase'⟩
  · exact ⟨_, exec_rxb_of_dispatching b now hf hp, State.raise_fault s _, gives_of_outputs (State.raise_outputs s _)⟩
  · obtain ⟨-, -, ⟨hphase, hcount, hbuf, -⟩, -⟩ := execReg_frame h
    exact ⟨hphase.trans hp, hcount, hbuf⟩
end
